-- ==== Sys2Proof/Word.lean ====
section
/-!
DEFINITION. The words of the hardware (spec/00_scope.md R9 section 7.1, spec/20_memory.md R36): all quantities are
unsigned bit vectors, bit 0 the least significant.
-/

namespace Sys2Proof

/-- A byte of the link, of the receive buffer or of the command ROM (R36: "the link moves 8 bits at a time"). -/
abbrev Byte := BitVec 8

/-- A 16-bit unsigned value: a concentration, a window element, the exposed average (R36). -/
abbrev Conc := BitVec 16

/-- The 19-bit window sum, `SUM_W` (spec/00_scope.md R6). -/
abbrev SumWord := BitVec 19

/-- A 32-bit error counter, `CNT_W` (spec/00_scope.md R6). -/
abbrev Counter := BitVec 32

/-- A frame, sent or received: nine bytes, index order being wire order (spec/30_encoding.md R50, spec/20_memory.md
R31). The receive buffer `rx_buf[0..8]` has the same shape (spec/10_state.md R11). -/
abbrev Frame := Vector Byte 9

end Sys2Proof
end

