-- ==== Sys2Proof/Machine/Types.lean ====
section
/-!
DEFINITION. The small types of the machine: FSM states, frame selectors, reading outcomes, link and outcome events,
one clock cycle's inputs, and the draw that fills the registers a reset leaves unspecified.
-/

namespace Sys2Proof.Machine

/-- The FSM state `fsm`, 2 bits (spec/10_state.md R13). -/
inductive Fsm where
  | idle | discard | send | recv
  deriving DecidableEq, Repr, Inhabited

/-- The encoding IDLE=0, DISCARD=1, SEND=2, RECV=3 (R13), visible on no port. -/
def Fsm.code : Fsm → BitVec 2
  | .idle => 0
  | .discard => 1
  | .send => 2
  | .recv => 3

/-- The frame selector `op`, 2 bits (spec/10_state.md R19). -/
inductive Op where
  | read | abcOff | abcOn | range
  deriving DecidableEq, Repr, Inhabited

/-- The encoding READ=0, ABC_OFF=1, ABC_ON=2, RANGE=3 (R19), visible on no port. -/
def Op.code : Op → BitVec 2
  | .read => 0
  | .abcOff => 1
  | .abcOn => 2
  | .range => 3

/-- The Reading Outcome of VALIDATE: exactly five constructors (spec/41_frame_parser.md R80). The four error kinds are
values, not faults (spec/60_exceptions.md R141). -/
inductive Reading where
  | ok (conc : Conc)
  | incompleteResponse
  | badStartByte
  | unexpectedResponseCode
  | checksumMismatch
  deriving DecidableEq, Repr

/-- What the block does on the transport and outcome ports, seen at Layer A (spec/00_scope.md R9 section 7.3,
spec/30_encoding.md R61). -/
inductive Event where
  /-- `T.discard_input()` (R103). -/
  | discardInput
  /-- One byte of `T.write(FRAME(op))` taken by the transport (R104). -/
  | sent (b : Byte)
  /-- The return of `T.flush()` (R105). -/
  | flushed
  /-- One byte of the answer to `T.read(9, timeout)` (R106). -/
  | received (b : Byte)
  /-- The outcome event `rsp(status, conc)` emitted by a commit (R61, R107). -/
  | rsp (status : BitVec 3) (conc : Conc)
  deriving DecidableEq, Repr

/-- What the host and the transport do in one clock cycle (spec/60_exceptions.md R142; spec/30_encoding.md R60, R63;
spec/43_request_response_fsm.md R114). -/
structure Inputs where
  /-- `rst` (R60). -/
  rst : Bool
  /-- `cmd_valid`: the host presents a command (R60). -/
  cmdValid : Bool
  /-- `cmd_code` (R60). -/
  cmdCode : BitVec 3
  /-- `tx_ready`: the transport takes the byte offered in this cycle (R63). -/
  txReady : Bool
  /-- The transport is willing to raise `tx_empty`; it rises only when nothing is left to transmit (R63, R114.2). -/
  txReport : Bool
  /-- The transport is willing to raise `rx_valid`; it rises only when it holds a received byte (R63). -/
  rxOffer : Bool
  /-- `rx_timeout`: the transport's read timeout has ended (R63). -/
  rxTimeout : Bool
  /-- The bytes that reach the transport's input buffer in this cycle, oldest first: arbitrary (R114.6, R23). -/
  arrives : List Byte
  /-- How many bytes of the transport's output buffer finish transmission in this cycle (R23). -/
  leaves : Nat
  deriving DecidableEq, Repr, Inhabited

/-- Values for the registers that a reset leaves unspecified (spec/10_state.md R25). -/
structure ResetDraw where
  op : Op
  txIdx : BitVec 4
  rxCnt : BitVec 4
  rxBuf : Frame
  win : Vector Conc 6
  deriving DecidableEq, Repr, Inhabited

end Sys2Proof.Machine
end

