-- ==== Sys2Proof/Config.lean ====
section
/-!
DEFINITION. What is fixed for the hardware and what no source fixes (spec/00_scope.md R5, R6;
spec/92_eei_decisions.md, "Configuration parameters with a decided value" and "Open parameters").
-/

namespace Sys2Proof

/-- The parameters the spec asks a model to carry as configuration, so that claims about BUILD, the ROM and VALIDATE
can be stated for any value of them (spec/92_eei_decisions.md). -/
structure Config where
  /-- `START`, byte 0 of every frame (R5). -/
  start : Byte
  /-- `CMD_B1`, byte 1 of every command frame (R5). -/
  cmdB1 : Byte
  /-- `RESP_CODE`, byte 1 of a CO2-reading response (R5, D11). -/
  respCode : Byte
  /-- `CONC_HI`, index of the concentration's high byte (R5, D11). -/
  concHi : Fin 9
  /-- `CONC_LO`, index of the concentration's low byte (R5, D11). -/
  concLo : Fin 9
  /-- `OP_READ` (R5, D10, conflict C2). -/
  opRead : Byte
  /-- `OP_RANGE` (R5). -/
  opRange : Byte
  /-- `OP_ABC` (R5). -/
  opAbc : Byte
  /-- `ABC_ON_P0` (R6, D33): which of the two ABC frames means "on" is the spec's own choice. -/
  abcOnP0 : Byte
  /-- `ABC_OFF_P0` (R6, D33). -/
  abcOffP0 : Byte
  deriving DecidableEq, Repr

namespace Config

/-- This hardware's values (spec/00_scope.md R5 and R6). -/
def hw : Config where
  start := 0xFF
  cmdB1 := 0x01
  respCode := 0x85
  concHi := 4
  concLo := 5
  opRead := 0x86
  opRange := 0x99
  opAbc := 0x79
  abcOnP0 := 0xA0
  abcOffP0 := 0x00

/-- FREE VALUE: what host and transport do at the clock edge of the given number when `State.inputs` says nothing
(spec/00_scope.md R7: "a model must treat the answer to a read as a free input"). Log entry 5. -/
opaque freeInputs : Nat → Machine.Inputs

/-- FREE VALUE: `op`, `tx_idx`, `rx_cnt`, `rx_buf` and `win` after a reset at the clock edge of the given number
(spec/70_reset_and_hazards.md R160: "are left unspecified"). Log entry 2. -/
opaque freeRegs : Nat → Machine.ResetDraw

/-- FREE VALUE: `tx_data` in a cycle with `tx_valid` = 0 (spec/43_request_response_fsm.md R115: "`tx_data` is then not
meaningful"). Log entry 7. -/
opaque freeTxData : Nat → Byte

/-- OPEN parameter `T_RX`, the transport's read timeout (spec/00_scope.md R6, D9): the block never sees it. -/
opaque tRx : Nat

/-- OPEN parameter `F_CLK`, the clock frequency (R6, D1): no rule depends on it. -/
opaque fClk : Nat

end Config

end Sys2Proof
end

