-- ==== Sys2Proof/Machine/Checksum.lean ====
section
/-!
DEFINITION. The checksum family: SUM7, CHK, BUILD and CHKOK (spec/40_checksum.md), and the command ROM (spec/30_encoding.md R56).
Pure functions of bytes; the family holds no register (R77).
-/

namespace Sys2Proof.Machine

/-- SUM7 (spec/40_checksum.md R70): the seven bytes added as unsigned integers, modulo 256. -/
def sum7 (b1 b2 b3 b4 b5 b6 b7 : Byte) : Byte :=
  BitVec.ofNat 8 (b1.toNat + b2.toNat + b3.toNat + b4.toNat + b5.toNat + b6.toNat + b7.toNat)

/-- CHK (R71): `(256 - SUM7) mod 256`; the second reduction matters for SUM7 = 0. -/
def chk (b1 b2 b3 b4 b5 b6 b7 : Byte) : Byte :=
  BitVec.ofNat 8 (256 - (sum7 b1 b2 b3 b4 b5 b6 b7).toNat)

/-- CHK of bytes 1 to 7 of a frame (R70: "excluding index 0 and index 8"). -/
def frameChk (f : Frame) : Byte :=
  chk f[1] f[2] f[3] f[4] f[5] f[6] f[7]

/-- CHKOK (R73): the trailing byte equals the checksum of bytes 1 to 7; byte 0 is not looked at. -/
def chkOk (f : Frame) : Bool :=
  f[8] == frameChk f

/-- BUILD (R72): a command frame of an opcode and five payload bytes (conflict C1). -/
def build (c : Config) (opcode p0 p1 p2 p3 p4 : Byte) : Frame :=
  #v[c.start, c.cmdB1, opcode, p0, p1, p2, p3, p4, chk c.cmdB1 opcode p0 p1 p2 p3 p4]

/-- The command ROM (spec/30_encoding.md R56): the four BUILD results, selected by `op`. No operation writes it (R44). -/
def frameOf (c : Config) : Op → Frame
  | .read => build c c.opRead 0x00 0x00 0x00 0x00 0x00
  | .abcOff => build c c.opAbc c.abcOffP0 0x00 0x00 0x00 0x00
  | .abcOn => build c c.opAbc c.abcOnP0 0x00 0x00 0x00 0x00
  | .range => build c c.opRange 0x00 0x00 0x00 0x07 0xD0

end Sys2Proof.Machine
end

