-- ==== Sys2Proof/Syntax.lean ====
section
/-!
DEFINITION. One constructor per row of spec/opcode_table.json: the eight host command codes (format HC,
spec/30_encoding.md R53), the four frames of the command ROM and the two general frame patterns (formats CF and RF,
R51, R52, R56, R57), and the five outcome status codes (format ST, R54).
-/

namespace Sys2Proof

inductive Instr where
  /-- NOP, command code 0 (spec/44_controller_ops.md R134). -/
  | nop
  /-- POLL_CO2, command code 1 (spec/43_request_response_fsm.md R102). -/
  | pollCo2
  /-- SET_ABC_OFF, command code 2 (R108). -/
  | setAbcOff
  /-- SET_ABC_ON, command code 3 (R109). -/
  | setAbcOn
  /-- SET_RANGE_2000, command code 4 (R110). -/
  | setRange2000
  /-- CLEAR_ERRORS, command code 5 (spec/44_controller_ops.md R132). -/
  | clearErrors
  /-- HUM_FAIL, command code 6 (R133). -/
  | humFail
  /-- RESERVED_7, command code 7 (R137): accepted when idle, acts as NOP. -/
  | reserved7
  /-- FRAME_READ, ROM row READ: `FF 01 86 00 00 00 00 00 79` (spec/30_encoding.md R56). -/
  | frameRead
  /-- FRAME_ABC_OFF, ROM row ABC_OFF: `FF 01 79 00 00 00 00 00 86` (R56). -/
  | frameAbcOff
  /-- FRAME_ABC_ON, ROM row ABC_ON: `FF 01 79 A0 00 00 00 00 E6` (R56). -/
  | frameAbcOn
  /-- FRAME_RANGE_2000, ROM row RANGE: `FF 01 99 00 00 00 07 D0 8F` (R56). -/
  | frameRange2000
  /-- CF_GENERIC, any command frame on the link: opcode, five payload bytes, checksum (R51; built by BUILD,
  spec/40_checksum.md R72). -/
  | cfGeneric (opcode p0 p1 p2 p3 p4 chk : Byte)
  /-- RF_CO2_READING, a received frame with start byte 0xFF and response code 0x85 (R52, R57). -/
  | rfCo2Reading (r2 r3 concHi concLo r6 r7 chk : Byte)
  /-- ST_OK, outcome status 0 (R54; spec/41_frame_parser.md R85). -/
  | stOk
  /-- ST_INCOMPLETE_RESPONSE, outcome status 1 (R81). -/
  | stIncompleteResponse
  /-- ST_BAD_START_BYTE, outcome status 2 (R82). -/
  | stBadStartByte
  /-- ST_UNEXPECTED_RESPONSE_CODE, outcome status 3 (R83). -/
  | stUnexpectedResponseCode
  /-- ST_CHECKSUM_MISMATCH, outcome status 4 (R84). -/
  | stChecksumMismatch
  deriving DecidableEq, Repr

/-- The pseudo-command `SET_ABC b` (spec/30_encoding.md R65): SET_ABC_ON if `b` is true, SET_ABC_OFF if false. -/
def Instr.setAbc (enabled : Bool) : Instr :=
  if enabled then .setAbcOn else .setAbcOff

end Sys2Proof
end

