-- ==== Sys2Proof/Machine/State.lean ====
section
/-!
DEFINITION. The state of the machine: the block's registers (spec/10_state.md R10), the transport's two buffers (R23),
and the model's own record of inputs, elapsed clock edges and observed events; the stops; the state after reset.
-/

namespace Sys2Proof.Machine

/-- The complete state of the block: "the following registers and nothing else" (spec/10_state.md R10). -/
structure Regs where
  /-- Where the block is in an exchange, 2 bits (R13). -/
  fsm : Fsm
  /-- Which command frame the current exchange sends, 2 bits (R19). -/
  op : Op
  /-- How many bytes of the command frame have been handed to the transport, 4 bits (R14). -/
  txIdx : BitVec 4
  /-- How many response bytes have been received in this exchange, 4 bits (R14). -/
  rxCnt : BitVec 4
  /-- `rx_buf[0..8]`, nine 8-bit registers (R11). -/
  rxBuf : Frame
  /-- `win[0..5]`, six 16-bit registers (R20). -/
  win : Vector Conc 6
  /-- Index in `win` of the oldest value, 3 bits, 0 to 5 (R20, R21; log entry 3). -/
  head : Fin 6
  /-- Number of valid values in the window, 3 bits, 0 to 6 (R20, R21; log entry 3). -/
  count : Fin 7
  /-- Sum of the values in the window, 19 bits (R20). -/
  sum : SumWord
  /-- The exposed average CO2 concentration, 16 bits (R16). -/
  avg : Conc
  /-- Failed CO2 polls since reset or the last clear, 32 bits (R17). -/
  co2Err : Counter
  /-- Humidity read failures reported since reset or the last clear, 32 bits (R18). -/
  humErr : Counter
  deriving DecidableEq, Repr

/-- The block, the transport's buffers, and the model's own record. Plain data. -/
structure State extends Regs where
  /-- The transport's input buffer: received, undelivered bytes, oldest first (R23 (a)). -/
  linkIn : List Byte
  /-- The transport's output buffer: written, not yet transmitted bytes, oldest first (R23 (b)). -/
  linkOut : List Byte
  /-- MODEL: what host and transport do at the coming clock edges, the next edge first; after its end the inputs are
  free values (log entry 5). -/
  inputs : List Inputs
  /-- MODEL: how many clock edges have passed; the index of the free values (log entry 5). -/
  cycle : Nat
  /-- MODEL: the transport-call and outcome events so far, oldest first; no meaning reads it (log entry 6). -/
  observed : List Event
  deriving DecidableEq, Repr

/-- Faults. There is none: "Nothing in this hardware is treated as `fault`: no operation traps, and no input
combination is illegal in a way that stops the block" (spec/93_implementation_defined.md). -/
inductive Fault where
  deriving DecidableEq, Repr

/-- Refusals. -/
inductive Refusal where
  /-- Raised by an arm of `exec` whose instruction has no meaning yet; safe (the model stops). No arm raises it now. -/
  | notModelled (mnemonic : String)
  deriving DecidableEq, Repr

/-- The machine right after reset (spec/10_state.md R25, spec/70_reset_and_hazards.md R160). R25 leaves `op`, `tx_idx`,
`rx_cnt`, `rx_buf` and `win` unspecified: their values here are a DESIGN CHOICE (log entry 1); so are the empty
transport buffers (log entry 4) and the model's own fields (log entries 5 and 6). -/
def State.reset : State where
  fsm := .idle
  op := .read
  txIdx := 0
  rxCnt := 0
  rxBuf := #v[0, 0, 0, 0, 0, 0, 0, 0, 0]
  win := #v[0, 0, 0, 0, 0, 0]
  head := 0
  count := 0
  sum := 0
  avg := 0
  co2Err := 0
  humErr := 0
  linkIn := []
  linkOut := []
  inputs := []
  cycle := 0
  observed := []

end Sys2Proof.Machine
end

