-- ==== Sys2Proof/Machine/Operands.lean ====
section
/-!
DEFINITION. Operand assembly (spec/30_encoding.md R55) and the index spaces (spec/20_memory.md R30).
-/

namespace Sys2Proof.Machine

/-- The concentration `{F[4], F[5]}` = 256 × `F[4]` + `F[5]`, big-endian, unsigned (R55.1, spec/20_memory.md R32). -/
def concOf (c : Config) (f : Frame) : Conc :=
  BitVec.ofNat 16 (256 * f[c.concHi].toNat + f[c.concLo].toNat)

/-- `zext_19` of a window element (R55.1). -/
def zext19 (v : Conc) : SumWord :=
  v.setWidth 19

/-- The abstract window `W = [win[(head + j) mod 6] for j in 0 .. count-1]`, oldest first (spec/10_state.md R20). -/
def Regs.window (r : Regs) : List Conc :=
  (List.range r.count.val).map fun j => r.win[(r.head.val + j) % 6]'(Nat.mod_lt _ (by decide))

/-- The three index spaces of spec/20_memory.md R30. -/
inductive Space where
  /-- The command frame selected by an `op` (not writable). -/
  | rom (o : Op)
  /-- `rx_buf[0..8]`. -/
  | rxBuf
  /-- `win[0..5]`. -/
  | win
  deriving DecidableEq, Repr

/-- `MemRead` of spec/00_scope.md R9 section 7.2: one element of an index space; no element stands outside the ranges
of R30. -/
def memRead (r : Regs) (sp : Space) (i : Nat) : Option Nat :=
  match sp with
  | .rom o => (frameOf Config.hw o)[i]?.map BitVec.toNat
  | .rxBuf => r.rxBuf[i]?.map BitVec.toNat
  | .win => r.win[i]?.map BitVec.toNat

end Sys2Proof.Machine
end

