-- ==== Sys2Proof/Machine/Filter.lean ====
section
/-!
DEFINITION. The moving-average filter: PUSH and AVERAGE on the abstract window (spec/42_moving_average.md R91, R92) and
on the ring-buffer registers (R93).
-/

namespace Sys2Proof.Machine

/-- PUSH on the abstract window of capacity `k` (R91; `K` = 6 for this hardware, spec/00_scope.md R5): evict the oldest
of a full window, then append. -/
def pushWindow (k : Nat) (w : List Conc) (v : Conc) : List Conc :=
  if w.length = k then w.tail ++ [v] else w ++ [v]

/-- The exact sum of a window, as an unbounded natural (spec/00_scope.md R9 section 7.1, `sum(s)`). -/
def windowSum (w : List Conc) : Nat :=
  (w.map BitVec.toNat).sum

/-- PUSH on the registers, one step (R93). -/
def Regs.push (r : Regs) (v : Conc) : Regs :=
  if r.count = 6 then
    { r with
      sum := r.sum - zext19 r.win[r.head] + zext19 v
      win := r.win.set r.head.val v r.head.isLt
      head := ⟨(r.head.val + 1) % 6, Nat.mod_lt _ (by decide)⟩ }
  else
    { r with
      sum := r.sum + zext19 v
      win := r.win.set ((r.head.val + r.count.val) % 6) v (Nat.mod_lt _ (by decide))
      count := r.count + 1 }

/-- AVERAGE on the registers (R92, R93): `sum div count`, truncated; unchanged for an empty window. -/
def Regs.average (r : Regs) : Conc :=
  if r.count = 0 then r.avg else BitVec.ofNat 16 (r.sum.toNat / r.count.val)

end Sys2Proof.Machine
end

