-- ==== Sys2Proof/Machine/Flags.lean ====
section
/-!
DEFINITION. The two derived status bits (spec/10_state.md R15) and the saturating increment of the error counters. There are no
condition codes.
-/

namespace Sys2Proof.Machine

/-- `busy` = (`fsm` ≠ IDLE) (R15). -/
def Regs.busy (r : Regs) : Bool :=
  r.fsm != .idle

/-- `avg_valid` = (`count` ≠ 0) (R15). -/
def Regs.avgValid (r : Regs) : Bool :=
  r.count != 0

/-- `sat_inc_W(v)` = `v + 1` if `v < 2^W − 1`, else `v` (spec/00_scope.md R9 section 7.1), for any counter width
`CNT_W`. -/
def satInc {w : Nat} (v : BitVec w) : BitVec w :=
  if v.toNat < 2 ^ w - 1 then BitVec.ofNat w (v.toNat + 1) else v

end Sys2Proof.Machine
end

