-- ==== Sys2Proof/Machine/Parser.lean ====
section
/-!
DEFINITION. The frame parser VALIDATE (spec/41_frame_parser.md) and the outcome encoding (spec/30_encoding.md R54).
-/

namespace Sys2Proof.Machine

/-- VALIDATE (spec/41_frame_parser.md R86): the checks in the document's order, the first that fails gives the result.
`n` is the number of bytes received; no byte is read when `n < 9` (R81). -/
def validate (c : Config) (n : Nat) (b : Frame) : Reading :=
  if n < 9 then .incompleteResponse
  else if b[0] ≠ c.start then .badStartByte
  else if b[1] ≠ c.respCode then .unexpectedResponseCode
  else if !chkOk b then .checksumMismatch
  else .ok (concOf c b)

/-- `rsp_status`: 0 Ok, 1 to 4 the error kinds in the order of the checks (spec/30_encoding.md R54). -/
def Reading.status : Reading → BitVec 3
  | .ok _ => 0
  | .incompleteResponse => 1
  | .badStartByte => 2
  | .unexpectedResponseCode => 3
  | .checksumMismatch => 4

/-- `rsp_conc`: the concentration of an Ok outcome, 0 with an error (R54, D20). -/
def Reading.conc : Reading → Conc
  | .ok v => v
  | .incompleteResponse => 0
  | .badStartByte => 0
  | .unexpectedResponseCode => 0
  | .checksumMismatch => 0

/-- The row of the table that a status code is (format ST, R54). -/
def Reading.row : Reading → Instr
  | .ok _ => .stOk
  | .incompleteResponse => .stIncompleteResponse
  | .badStartByte => .stBadStartByte
  | .unexpectedResponseCode => .stUnexpectedResponseCode
  | .checksumMismatch => .stChecksumMismatch

end Sys2Proof.Machine
end

