-- ==== Sys2Proof/Machine/Ops.lean ====
section
/-!
DEFINITION. The named operations over the state: the current cycle's inputs, the step rules of the FSM
(spec/43_request_response_fsm.md R101 to R107, R115), the commits (spec/44_controller_ops.md R130, R131), the reset
edge (spec/70_reset_and_hazards.md R160), and what ends a clock cycle.

Taking an exception is `commitError` (spec/60_exceptions.md R147: nothing is saved, the counter is incremented, the
outcome event carries the kind, the FSM goes to IDLE). There is no return from it: "There is no return instruction and
no handler" (R149).
-/

namespace Sys2Proof.Machine

/-- The inputs of the current clock cycle; a free value where the list says nothing (log entry 5). -/
def State.pins (s : State) : Inputs :=
  s.inputs.headD (Config.freeInputs s.cycle)

/-- `tx_empty`: "every byte taken so far has left the transmitter" (spec/30_encoding.md R63, R114.2). -/
def State.txEmpty (s : State) : Bool :=
  s.pins.txReport && s.linkOut.isEmpty

/-- `rx_valid`: the transport offers a received byte (R63). -/
def State.rxValid (s : State) : Bool :=
  s.pins.rxOffer && !s.linkIn.isEmpty

/-- `rsp_valid` = (`fsm` = RECV) and (`rx_cnt` = 9 or `rx_timeout` = 1) (R61, R115): the last cycle of RECV. -/
def State.rspValid (s : State) : Bool :=
  s.fsm == .recv && (s.rxCnt == 9 || s.pins.rxTimeout)

/-- `rx_ready` = `rx_req` and `rx_cnt` < 9 and `rx_timeout` = 0 (R63). -/
def State.rxReady (s : State) : Bool :=
  s.fsm == .recv && decide (s.rxCnt.toNat < 9) && !s.pins.rxTimeout

/-- The outcome that VALIDATE gives of what has been received: `VALIDATE(rx_cnt, rx_buf)` (R107). -/
def State.outcome (s : State) : Reading :=
  validate Config.hw s.rxCnt.toNat s.rxBuf

/-- Append an event to the record of what the ports showed. -/
def State.observe (s : State) (e : Event) : State :=
  { s with observed := s.observed ++ [e] }

/-- Acceptance of a sending command (R101): latch `op`, clear `tx_idx`, leave IDLE. A command presented while `fsm` ≠
IDLE is not accepted and has no effect (R101, R163). -/
def State.acceptSend (s : State) (o : Op) (target : Fsm) : State :=
  if s.fsm = .idle then { s with op := o, txIdx := 0, fsm := target } else s

/-- The DISCARD step (R103): the transport drops every byte it holds; `rx_cnt <- 0`; `fsm <- SEND`. -/
def State.discardStep (s : State) : State :=
  { s with linkIn := [], rxCnt := 0, fsm := .send }.observe .discardInput

/-- The SEND byte step (R104): the byte `FRAME(op)[tx_idx]` is handed over if the transport takes it. -/
def State.sendByteStep (s : State) (h : s.txIdx.toNat < 9) : State :=
  if s.pins.txReady then
    let b := (frameOf Config.hw s.op)[s.txIdx.toNat]
    { s with linkOut := s.linkOut ++ [b], txIdx := s.txIdx + 1 }.observe (.sent b)
  else s

/-- The FLUSH step (R105), taken when everything written has been transmitted. -/
def State.flushStep (s : State) : State :=
  if s.txEmpty then
    { s with fsm := if s.op = Op.read then Fsm.recv else Fsm.idle }.observe .flushed
  else s

/-- The SEND rows of R115: byte step while `tx_idx` < 9, flush step at `tx_idx` = 9. -/
def State.sendStep (s : State) : State :=
  if h : s.txIdx.toNat < 9 then s.sendByteStep h
  else if s.txIdx = 9 then s.flushStep
  else s

/-- The RECV byte step (R106): `rx_buf[rx_cnt] <- b`; `rx_cnt <- rx_cnt + 1`, with no inspection of the byte. It needs
`rx_ready` (so a timeout in the same cycle wins, R107) and a byte the transport offers. -/
def State.recvByteStep (s : State) : State :=
  if h : s.rxCnt.toNat < 9 then
    if s.rxReady && s.rxValid then
      match s.linkIn with
      | [] => s
      | b :: rest =>
        { s with linkIn := rest, rxBuf := s.rxBuf.set s.rxCnt.toNat b h, rxCnt := s.rxCnt + 1 }.observe (.received b)
    else s
  else s

/-- Commit on success (spec/44_controller_ops.md R130): PUSH, then AVERAGE of the window after the push, then the
outcome event; the FSM goes to IDLE (R107). -/
def State.commitOk (s : State) (c : Conc) : State :=
  let pushed := s.toRegs.push c
  { s with toRegs := { pushed with avg := pushed.average, fsm := .idle } }.observe (.rsp 0 c)

/-- Commit on failure, the one error entry (spec/44_controller_ops.md R131, spec/60_exceptions.md R147): `co2_err`
saturating + 1, the outcome event with the kind's code and the value 0, `fsm` to IDLE, nothing saved. -/
def State.commitError (s : State) (status : BitVec 3) : State :=
  { s with co2Err := satInc s.co2Err, fsm := .idle }.observe (.rsp status 0)

/-- The commit of an outcome (R107). -/
def State.commit (s : State) (r : Reading) : State :=
  match r with
  | .ok c => s.commitOk c
  | .incompleteResponse => s.commitError 1
  | .badStartByte => s.commitError 2
  | .unexpectedResponseCode => s.commitError 3
  | .checksumMismatch => s.commitError 4

/-- The completion step (R107): validate and commit, all in one step. -/
def State.complete (s : State) : State :=
  s.commit s.outcome

/-- One clock edge's share of a frame that stands on the link. In SEND the block sends the frame of its ROM row and no
other (R104, R58): the send step if `f` is that frame. In RECV a frame that has been received whole, `rx_buf` = `f`
with `rx_cnt` = 9, completes the poll (R107). Otherwise the frame is not at the block and nothing happens. -/
def State.onLink (s : State) (f : Frame) : State :=
  match s.fsm with
  | .send => if frameOf Config.hw s.op = f then s.sendStep else s
  | .recv => if s.rxCnt = 9 ∧ s.rxBuf = f then s.complete else s
  | .idle => s
  | .discard => s

/-- The completion step under a given status code on the outcome port (R54, R61): taken when `rsp_valid` = 1 and
`rsp_status` is that code, and nothing otherwise. -/
def State.onStatus (s : State) (status : BitVec 3) : State :=
  if s.rspValid && s.outcome.status == status then s.complete else s

/-- A reset edge (spec/70_reset_and_hazards.md R160): the reset values of R25; the registers R25 leaves unspecified take
free values (log entry 2). No event is produced (R161). A handshake that stands on the ports in this cycle (`tx_valid`
with `tx_ready`, `rx_ready` with `rx_valid`, `rx_discard`) moves no byte: DESIGN CHOICE, log entry 18. -/
def State.resetEdge (s : State) : State :=
  let d := Config.freeRegs s.cycle
  { s with
    fsm := .idle, head := 0, count := 0, sum := 0, avg := 0, co2Err := 0, humErr := 0
    op := d.op, txIdx := d.txIdx, rxCnt := d.rxCnt, rxBuf := d.rxBuf, win := d.win }

/-- The end of a clock cycle: the bytes that arrived join the transport's input buffer, those transmitted leave its
output buffer (spec/10_state.md R23), and the next cycle's inputs come up. Bytes arriving in the cycle of a discard are
not dropped (spec/20_memory.md R42 (b); log entry 4). -/
def State.endCycle (s : State) : State :=
  { s with
    linkIn := s.linkIn ++ s.pins.arrives
    linkOut := s.linkOut.drop s.pins.leaves
    inputs := s.inputs.tail
    cycle := s.cycle + 1 }

end Sys2Proof.Machine
end

