-- ==== Sys2Proof/Machine/FrameRows.lean ====
section
/-!
DEFINITION. The meanings of the frames on the link (formats CF and RF, spec/30_encoding.md R51, R52, R56, R57): one
clock edge's share of a frame that is going out (R104, R105) or has come in (R107), by `State.onLink`.
-/

namespace Sys2Proof.Machine

/-- FRAME_READ (spec/30_encoding.md R56, ROM row READ), sent by POLL_CO2. -/
def execFrameRead (s : State) : Host.Outcome State Fault Refusal :=
  .next (s.onLink #v[0xFF, 0x01, 0x86, 0x00, 0x00, 0x00, 0x00, 0x00, 0x79])

/-- FRAME_ABC_OFF (R56, ROM row ABC_OFF), sent by SET_ABC_OFF. -/
def execFrameAbcOff (s : State) : Host.Outcome State Fault Refusal :=
  .next (s.onLink #v[0xFF, 0x01, 0x79, 0x00, 0x00, 0x00, 0x00, 0x00, 0x86])

/-- FRAME_ABC_ON (R56, ROM row ABC_ON), sent by SET_ABC_ON. -/
def execFrameAbcOn (s : State) : Host.Outcome State Fault Refusal :=
  .next (s.onLink #v[0xFF, 0x01, 0x79, 0xA0, 0x00, 0x00, 0x00, 0x00, 0xE6])

/-- FRAME_RANGE_2000 (R56, ROM row RANGE), sent by SET_RANGE_2000. -/
def execFrameRange2000 (s : State) : Host.Outcome State Fault Refusal :=
  .next (s.onLink #v[0xFF, 0x01, 0x99, 0x00, 0x00, 0x00, 0x07, 0xD0, 0x8F])

/-- CF_GENERIC (R51, spec/40_checksum.md R72): any command frame. The block sends only the frames of its ROM (R58); a
command frame that comes in, such as the block's own echoed back, ends the poll as UnexpectedResponseCode (R83). -/
def execCfGeneric (opcode p0 p1 p2 p3 p4 k : Byte) (s : State) : Host.Outcome State Fault Refusal :=
  .next (s.onLink #v[0xFF, 0x01, opcode, p0, p1, p2, p3, p4, k])

/-- RF_CO2_READING (R52, R57; spec/41_frame_parser.md R84, R85): a CO2 reading that has come in ends the poll as Ok with
its concentration, or as ChecksumMismatch. -/
def execRfCo2Reading (r2 r3 hi lo r6 r7 k : Byte) (s : State) : Host.Outcome State Fault Refusal :=
  .next (s.onLink #v[0xFF, 0x85, r2, r3, hi, lo, r6, r7, k])

end Sys2Proof.Machine
end

