-- ==== Sys2Proof/Machine/HostCommands.lean ====
section
/-!
DEFINITION. The meanings of the eight host command codes (spec/30_encoding.md R53) at the clock edge at which they are
presented: the acceptance of spec/43_request_response_fsm.md R101 and the one-step commands of
spec/44_controller_ops.md. A command presented while `fsm` ≠ IDLE is not accepted and has no effect (R101, R163). What
follows the acceptance of a sending command, R103 to R107, is the work of the steps that follow it.
-/

namespace Sys2Proof.Machine

/-- NOP (spec/44_controller_ops.md R134): "any state → NOP → the same state". -/
def execNop (s : State) : Host.Outcome State Fault Refusal :=
  .next s

/-- POLL_CO2 (spec/43_request_response_fsm.md R101, R102): `op <- READ; tx_idx <- 0; fsm <- DISCARD`. -/
def execPollCo2 (s : State) : Host.Outcome State Fault Refusal :=
  .next (s.acceptSend .read .discard)

/-- SET_ABC_OFF (R101, R108): `op <- ABC_OFF; tx_idx <- 0; fsm <- SEND`. -/
def execSetAbcOff (s : State) : Host.Outcome State Fault Refusal :=
  .next (s.acceptSend .abcOff .send)

/-- SET_ABC_ON (R101, R109): `op <- ABC_ON; tx_idx <- 0; fsm <- SEND`. -/
def execSetAbcOn (s : State) : Host.Outcome State Fault Refusal :=
  .next (s.acceptSend .abcOn .send)

/-- SET_RANGE_2000 (R101, R110): `op <- RANGE; tx_idx <- 0; fsm <- SEND`. -/
def execSetRange2000 (s : State) : Host.Outcome State Fault Refusal :=
  .next (s.acceptSend .range .send)

/-- CLEAR_ERRORS (spec/44_controller_ops.md R132): both counters to 0 in the acceptance step; `fsm` stays IDLE. -/
def execClearErrors (s : State) : Host.Outcome State Fault Refusal :=
  .next (if s.fsm = .idle then { s with co2Err := 0, humErr := 0 } else s)

/-- HUM_FAIL (R133): `hum_err <- sat_inc_32(hum_err)`; `fsm` stays IDLE. -/
def execHumFail (s : State) : Host.Outcome State Fault Refusal :=
  .next (if s.fsm = .idle then { s with humErr := satInc s.humErr } else s)

/-- Command code 7 (R137): accepted when idle, behaves exactly as NOP. -/
def execReserved7 (s : State) : Host.Outcome State Fault Refusal :=
  .next s

end Sys2Proof.Machine
end

