-- ==== Sys2Proof/Machine/StatusRows.lean ====
section
/-!
DEFINITION. The meanings of the outcome status codes (format ST, spec/30_encoding.md R54): the completion step
(spec/43_request_response_fsm.md R107) at the clock edge that ends a cycle with `rsp_valid` = 1 and that code on
`rsp_status`, by `State.onStatus`. Statuses are the encodings of the commits (spec/44_controller_ops.md R130, R131).
-/

namespace Sys2Proof.Machine

/-- ST_OK (R54; spec/41_frame_parser.md R85): commit on success (spec/44_controller_ops.md R130). -/
def execStOk (s : State) : Host.Outcome State Fault Refusal :=
  .next (s.onStatus 0)

/-- ST_INCOMPLETE_RESPONSE (R54; R81): commit on failure (R131). -/
def execStIncompleteResponse (s : State) : Host.Outcome State Fault Refusal :=
  .next (s.onStatus 1)

/-- ST_BAD_START_BYTE (R54; R82): commit on failure (R131). -/
def execStBadStartByte (s : State) : Host.Outcome State Fault Refusal :=
  .next (s.onStatus 2)

/-- ST_UNEXPECTED_RESPONSE_CODE (R54; R83): commit on failure (R131). -/
def execStUnexpectedResponseCode (s : State) : Host.Outcome State Fault Refusal :=
  .next (s.onStatus 3)

/-- ST_CHECKSUM_MISMATCH (R54; R84): commit on failure (R131). -/
def execStChecksumMismatch (s : State) : Host.Outcome State Fault Refusal :=
  .next (s.onStatus 4)

end Sys2Proof.Machine
end

