-- ==== Sys2Proof/Machine/Dispatch.lean ====
section
/-!
DEFINITION. One arm per constructor of Instr.
-/

namespace Sys2Proof.Machine

def exec (i : Instr) (s : State) : Host.Outcome State Fault Refusal :=
  match i with
  -- format HC: the host commands
  | .nop => Sys2Proof.Machine.execNop s
  | .pollCo2 => Sys2Proof.Machine.execPollCo2 s
  | .setAbcOff => Sys2Proof.Machine.execSetAbcOff s
  | .setAbcOn => Sys2Proof.Machine.execSetAbcOn s
  | .setRange2000 => Sys2Proof.Machine.execSetRange2000 s
  | .clearErrors => Sys2Proof.Machine.execClearErrors s
  | .humFail => Sys2Proof.Machine.execHumFail s
  | .reserved7 => Sys2Proof.Machine.execReserved7 s
  -- formats CF and RF: frames on the link
  | .frameRead => Sys2Proof.Machine.execFrameRead s
  | .frameAbcOff => Sys2Proof.Machine.execFrameAbcOff s
  | .frameAbcOn => Sys2Proof.Machine.execFrameAbcOn s
  | .frameRange2000 => Sys2Proof.Machine.execFrameRange2000 s
  | .cfGeneric o p0 p1 p2 p3 p4 k => Sys2Proof.Machine.execCfGeneric o p0 p1 p2 p3 p4 k s
  | .rfCo2Reading r2 r3 hi lo r6 r7 k => Sys2Proof.Machine.execRfCo2Reading r2 r3 hi lo r6 r7 k s
  -- format ST: the outcome statuses
  | .stOk => Sys2Proof.Machine.execStOk s
  | .stIncompleteResponse => Sys2Proof.Machine.execStIncompleteResponse s
  | .stBadStartByte => Sys2Proof.Machine.execStBadStartByte s
  | .stUnexpectedResponseCode => Sys2Proof.Machine.execStUnexpectedResponseCode s
  | .stChecksumMismatch => Sys2Proof.Machine.execStChecksumMismatch s

end Sys2Proof.Machine
end

