-- ==== Sys2Proof/WellFormed.lean ====
section
/-!
DEFINITION. Which terms of `Instr` are instructions of the table. Only CF_GENERIC carries a condition: its checksum
field is "determined by the other fields" (spec/opcode_table.json; spec/30_encoding.md R51), and the four frames of the
command ROM have rows of their own (R56). An RF_CO2_READING frame is well-formed with any checksum byte: a wrong one is
the outcome ChecksumMismatch (spec/41_frame_parser.md R84), not another frame.
-/

namespace Sys2Proof

/-- The checksum field of a CF_GENERIC term is CHK of bytes 1 to 7 (spec/30_encoding.md R51). -/
def Instr.checksumRight : Instr → Bool
  | .cfGeneric o p0 p1 p2 p3 p4 k => k == Machine.chk 0x01 o p0 p1 p2 p3 p4
  | _ => true

/-- A CF_GENERIC term is none of the four frames of the command ROM, which are rows of their own (R56). -/
def Instr.notRomFrame : Instr → Bool
  | .cfGeneric o p0 p1 p2 p3 p4 k =>
    let payload := [p0, p1, p2, p3, p4]
    !((o == 0x86 && payload == [0x00, 0x00, 0x00, 0x00, 0x00] && k == 0x79)
      || (o == 0x79 && payload == [0x00, 0x00, 0x00, 0x00, 0x00] && k == 0x86)
      || (o == 0x79 && payload == [0xA0, 0x00, 0x00, 0x00, 0x00] && k == 0xE6)
      || (o == 0x99 && payload == [0x00, 0x00, 0x00, 0x07, 0xD0] && k == 0x8F))
  | _ => true

/-- A well-formed instruction passes both checks. -/
def Instr.wellFormed (i : Instr) : Bool :=
  i.checksumRight && i.notRomFrame

end Sys2Proof
end

