-- ==== Sys2Proof/Decode.lean ====
section
/-!
DEFINITION. The decoder, total on any bytes and rejecting by name, and after it the encoder (spec/30_encoding.md
sections 1 and 3, spec/opcode_table.json).

The table's rows stand on three ports: the 3-bit host command code (format HC, R53), nine-byte frames on the link
(formats CF and RF, R50 to R52), and the 3-bit outcome status (format ST, R54). The same three bits mean a command on
one port and a status on another, so the decoder is told the port.
-/

namespace Sys2Proof

/-- Where an instruction's bits stand. -/
inductive Port where
  /-- `cmd_code` on the command port (R53, R60). -/
  | command
  /-- A frame on the link (R50). -/
  | link
  /-- `rsp_status` on the outcome port (R54, R61). -/
  | outcome
  deriving DecidableEq, Repr

/-- Why bytes are no instruction. -/
inductive DecodeError where
  /-- A command or status port code is one byte. -/
  | notOneByte
  /-- A code of more than three bits (R53, R54). -/
  | codeTooWide
  /-- Status codes 5, 6 and 7 are never produced (R54, U14). -/
  | reservedStatus
  /-- A frame is exactly nine bytes (R50, R59). -/
  | notNineBytes
  /-- Byte 0 is not 0xFF (R51, R52). -/
  | badStartByte
  /-- Byte 1 is neither 0x01 (a command frame) nor 0x85 (a CO2 reading) (R51, R52, R58). -/
  | unknownCode
  deriving DecidableEq, Repr

/-- Every 3-bit command code is a command (R53). -/
def decodeCommand (code : BitVec 3) : Instr :=
  match code.toNat with
  | 0 => .nop
  | 1 => .pollCo2
  | 2 => .setAbcOff
  | 3 => .setAbcOn
  | 4 => .setRange2000
  | 5 => .clearErrors
  | 6 => .humFail
  | _ => .reserved7

/-- The status codes 0 to 4; 5 to 7 are never produced (R54). -/
def decodeStatus (code : BitVec 3) : Except DecodeError Instr :=
  match code.toNat with
  | 0 => .ok .stOk
  | 1 => .ok .stIncompleteResponse
  | 2 => .ok .stBadStartByte
  | 3 => .ok .stUnexpectedResponseCode
  | 4 => .ok .stChecksumMismatch
  | _ => .error .reservedStatus

/-- The four full frames of the table first, then the patterns CF_GENERIC and RF_CO2_READING, by the table's match and
mask. A command frame decodes with any checksum byte: DESIGN CHOICE, log entry 9. -/
def decodeFrame (f : Frame) : Except DecodeError Instr :=
  if f = #v[0xFF, 0x01, 0x86, 0x00, 0x00, 0x00, 0x00, 0x00, 0x79] then .ok .frameRead
  else if f = #v[0xFF, 0x01, 0x79, 0x00, 0x00, 0x00, 0x00, 0x00, 0x86] then .ok .frameAbcOff
  else if f = #v[0xFF, 0x01, 0x79, 0xA0, 0x00, 0x00, 0x00, 0x00, 0xE6] then .ok .frameAbcOn
  else if f = #v[0xFF, 0x01, 0x99, 0x00, 0x00, 0x00, 0x07, 0xD0, 0x8F] then .ok .frameRange2000
  else if f[0] ≠ 0xFF then .error .badStartByte
  else if f[1] = 0x01 then .ok (.cfGeneric f[2] f[3] f[4] f[5] f[6] f[7] f[8])
  else if f[1] = 0x85 then .ok (.rfCo2Reading f[2] f[3] f[4] f[5] f[6] f[7] f[8])
  else .error .unknownCode

/-- One byte holding a 3-bit code. -/
def codeOfBytes : List Byte → Except DecodeError (BitVec 3)
  | [b] => if b.toNat < 8 then .ok (b.setWidth 3) else .error .codeTooWide
  | _ => .error .notOneByte

/-- Nine bytes in wire order are a frame (R50). -/
def frameOfBytes : List Byte → Except DecodeError Frame
  | [b0, b1, b2, b3, b4, b5, b6, b7, b8] => .ok #v[b0, b1, b2, b3, b4, b5, b6, b7, b8]
  | _ => .error .notNineBytes

/-- The decoder, total on any bytes at any port. -/
def decode (p : Port) (bytes : List Byte) : Except DecodeError Instr :=
  match p with
  | .command => (codeOfBytes bytes).map decodeCommand
  | .outcome => (codeOfBytes bytes).bind decodeStatus
  | .link => (frameOfBytes bytes).bind decodeFrame

/-- Byte `i` of a frame written as one 72-bit number: bits 71-8i to 64-8i, byte 0 the most significant (R50). -/
def byteOfNumber (w i : Nat) : Byte :=
  BitVec.ofNat 8 (w >>> (8 * (8 - i)))

/-- The frame that a 72-bit number writes (R50). -/
def frameOfNumber (w : Nat) : Frame :=
  #v[byteOfNumber w 0, byteOfNumber w 1, byteOfNumber w 2, byteOfNumber w 3, byteOfNumber w 4,
     byteOfNumber w 5, byteOfNumber w 6, byteOfNumber w 7, byteOfNumber w 8]

/-- The instruction read from bits numbered as the table numbers them: rows of one byte stand on the command port, rows
of 72 bits on the link. A status row has a command row's bits, and is read on the outcome port only (log entry 9). -/
def decodeTableWord (nbits w : Nat) : Option Instr :=
  if nbits ≤ 8 then (decode .command [BitVec.ofNat 8 w]).toOption
  else if nbits = 72 then (decodeFrame (frameOfNumber w)).toOption
  else none

/-- The port a row of the table stands on (its format). -/
def Instr.port : Instr → Port
  | .nop | .pollCo2 | .setAbcOff | .setAbcOn | .setRange2000 | .clearErrors | .humFail | .reserved7 => .command
  | .frameRead | .frameAbcOff | .frameAbcOn | .frameRange2000 => .link
  | .cfGeneric _ _ _ _ _ _ _ | .rfCo2Reading _ _ _ _ _ _ _ => .link
  | .stOk | .stIncompleteResponse | .stBadStartByte | .stUnexpectedResponseCode | .stChecksumMismatch => .outcome

/-- The encoder: an instruction's bytes on its port, written from the tables under R51 to R56. -/
def encode : Instr → List Byte
  | .nop => [0]
  | .pollCo2 => [1]
  | .setAbcOff => [2]
  | .setAbcOn => [3]
  | .setRange2000 => [4]
  | .clearErrors => [5]
  | .humFail => [6]
  | .reserved7 => [7]
  | .frameRead => [0xFF, 0x01, 0x86, 0x00, 0x00, 0x00, 0x00, 0x00, 0x79]
  | .frameAbcOff => [0xFF, 0x01, 0x79, 0x00, 0x00, 0x00, 0x00, 0x00, 0x86]
  | .frameAbcOn => [0xFF, 0x01, 0x79, 0xA0, 0x00, 0x00, 0x00, 0x00, 0xE6]
  | .frameRange2000 => [0xFF, 0x01, 0x99, 0x00, 0x00, 0x00, 0x07, 0xD0, 0x8F]
  | .cfGeneric o p0 p1 p2 p3 p4 k => [0xFF, 0x01, o, p0, p1, p2, p3, p4, k]
  | .rfCo2Reading r2 r3 h l r6 r7 k => [0xFF, 0x85, r2, r3, h, l, r6, r7, k]
  | .stOk => [0]
  | .stIncompleteResponse => [1]
  | .stBadStartByte => [2]
  | .stUnexpectedResponseCode => [3]
  | .stChecksumMismatch => [4]

end Sys2Proof
end

