-- ==== Sys2Proof/Machine/Fetch.lean ====
section
/-!
DEFINITION. Where a step finds the row it runs, the steps that run no row, and where a row's bits are placed for the
next step to run. The block fetches no instructions from a memory (spec/20_memory.md R44): what it runs next is what
stands at the port that its FSM state looks at (spec/60_exceptions.md R142).
-/

namespace Sys2Proof.Machine

/-- The row of a completing poll: the received frame where nine bytes came in and are a frame of the table, else the
status that VALIDATE gives. -/
def State.receivedRow (s : State) : Instr :=
  if s.rxCnt = 9 then
    match decodeFrame s.rxBuf with
    | .ok i => i
    | .error _ => s.outcome.row
  else s.outcome.row

/-- The row at the port the FSM state looks at: the command presented in IDLE (R101), the ROM frame being sent in SEND
(R104), the received frame or outcome at the completion of RECV (R107). -/
def State.fetch (s : State) : Option Instr :=
  match s.fsm with
  | .idle => if s.pins.cmdValid then some (decodeCommand s.pins.cmdCode) else none
  | .discard => none
  | .send => (decodeFrame (frameOf Config.hw s.op)).toOption
  | .recv => if s.rspValid then some s.receivedRow else none

/-- A clock edge that runs no row of the table: an idle cycle, the DISCARD step (R103), the RECV byte step or a wait for
a byte (R106, R154). In SEND there is always a row. -/
def State.internalStep (s : State) : State :=
  match s.fsm with
  | .idle => s
  | .discard => s.discardStep
  | .send => s
  | .recv => s.recvByteStep

/-- What a step adds around `exec`: the end of the clock cycle. -/
def thenEndCycle (o : Host.Outcome State Fault Refusal) : Host.Outcome State Fault Refusal :=
  match o with
  | .next s => .next s.endCycle
  | .fault r => .fault r
  | .refused r => .refused r

/-- A cycle in which host and transport do nothing. -/
def Inputs.quiet : Inputs where
  rst := false
  cmdValid := false
  cmdCode := 0
  txReady := false
  txReport := false
  rxOffer := false
  rxTimeout := false
  arrives := []
  leaves := 0

/-- The ROM row that holds a frame, if one does. -/
def opOfFrame (f : Frame) : Option Op :=
  if f = frameOf Config.hw .read then some .read
  else if f = frameOf Config.hw .abcOff then some .abcOff
  else if f = frameOf Config.hw .abcOn then some .abcOn
  else if f = frameOf Config.hw .range then some .range
  else none

/-- Place a command on the command port of the coming cycle, the block being idle. -/
def State.placeCommand (s : State) (code : BitVec 3) : State :=
  { s with fsm := .idle, inputs := { Inputs.quiet with cmdValid := true, cmdCode := code } :: s.inputs }

/-- Place a frame where the coming cycle looks at it: a frame of the ROM at the start of its sending, with the transport
taking a byte; any other frame in the receive buffer, received whole. -/
def State.placeFrame (s : State) (f : Frame) : State :=
  match opOfFrame f with
  | some o => { s with fsm := .send, op := o, txIdx := 0, inputs := { Inputs.quiet with txReady := true } :: s.inputs }
  | none => { s with fsm := .recv, rxCnt := 9, rxBuf := f, inputs := Inputs.quiet :: s.inputs }

/-- Place the instruction whose bits are `w`, numbered as the table numbers them, for the very next step (log
entry 10). -/
def State.placeWord (s : State) (nbits w : Nat) : State :=
  if nbits ≤ 8 then s.placeCommand (BitVec.ofNat 3 w)
  else if nbits = 72 then s.placeFrame (frameOfNumber w)
  else s

end Sys2Proof.Machine
end

