-- ==== Sys2Proof/Machine/Step.lean ====
section
/-!
DEFINITION. One step: one rising clock edge (spec/43_request_response_fsm.md R115).
-/

namespace Sys2Proof.Machine

/-- One rising edge of `clk`: "`rst` = 1 at an edge overrides every row" (R115); otherwise the row at the port is run,
or the step that runs no row; then the cycle ends. -/
def step (s : State) : Host.Outcome State Fault Refusal :=
  if s.pins.rst then .next s.resetEdge.endCycle
  else
    match s.fetch with
    | some i => thenEndCycle (exec i s)
    | none => .next s.internalStep.endCycle

/-- `s` with the instruction of bits `w` placed where `step` finds its next instruction. -/
def State.withFetchWord (s : State) (nbits w : Nat) : State :=
  s.placeWord nbits w

end Sys2Proof.Machine
end

