-- ==== Sys2Proof/Machine/Script.lean ====
section
/-!
DEFINITION. Host programs and an always-ready transport as input samples (spec/30_encoding.md R64; the cycle trace of
spec/43_request_response_fsm.md R115 and spec/95_test_vectors.md section 2.5). Nothing in `step` uses this file: it is
one way, among all the free ones, in which the inputs of a run can go.

`pending` is how many bytes the transport's output buffer still holds when the command is presented.
-/

namespace Sys2Proof.Machine

/-- A cycle in which the host presents a command. -/
def Script.present (code : BitVec 3) : Inputs :=
  { Inputs.quiet with cmdValid := true, cmdCode := code }

/-- A cycle in which the transport takes a byte, and by whose end it has transmitted all it holds. -/
def Script.takeByte (pending : Nat) : Inputs :=
  { Inputs.quiet with txReady := true, leaves := pending + 1 }

/-- A cycle in which the flush completes and the given bytes arrive from the link. -/
def Script.flush (answer : List Byte) : Inputs :=
  { Inputs.quiet with txReport := true, arrives := answer }

/-- A cycle in which the transport offers a received byte. -/
def Script.deliver : Inputs :=
  { Inputs.quiet with rxOffer := true }

/-- A cycle in which the read timeout ends. -/
def Script.timeout : Inputs :=
  { Inputs.quiet with rxTimeout := true }

/-- `POLL_CO2 ; rx: <answer>` (R64): a sequence of fewer than nine bytes ends by timeout. -/
def Script.poll (pending : Nat) (answer : List Byte) : List Inputs :=
  [Script.present 1, Inputs.quiet] ++ List.replicate 9 (Script.takeByte pending) ++ [Script.flush answer]
    ++ List.replicate answer.length Script.deliver
    ++ [if answer.length = 9 then Inputs.quiet else Script.timeout]

/-- A SET command, `; tx only` (R64). -/
def Script.set (pending : Nat) (code : BitVec 3) : List Inputs :=
  [Script.present code] ++ List.replicate 9 (Script.takeByte pending) ++ [Script.flush []]

/-- One line of a host program (R64): a command code and the bytes its read returns, if it reads. -/
def Script.line (pending : Nat) (code : BitVec 3) (answer : List Byte) : List Inputs :=
  match code.toNat with
  | 1 => Script.poll pending answer
  | 2 => Script.set pending code
  | 3 => Script.set pending code
  | 4 => Script.set pending code
  | _ => [Script.present code]

/-- `n` clock edges. It is `Host.Core.run` of the machine (Laws/Run.lean), written over the machine's own types. -/
def runSteps : Nat → State → Host.Outcome State Fault Refusal
  | 0, s => .next s
  | n + 1, s =>
    match step s with
    | .next t => runSteps n t
    | .fault r => .fault r
    | .refused r => .refused r

end Sys2Proof.Machine
end

