-- ==== Sys2Proof/Machine/Ports.lean ====
section
/-!
DEFINITION. The output ports in the current clock cycle (spec/30_encoding.md R60 to R63, spec/43_request_response_fsm.md R115). All
are combinational functions of the registers and of the cycle's inputs; reading them changes nothing (spec/20_memory.md
R38, spec/44_controller_ops.md R135).
-/

namespace Sys2Proof.Machine

/-- The block's outputs. -/
structure Outputs where
  cmdReady : Bool
  busy : Bool
  avg : Conc
  avgValid : Bool
  co2Err : Counter
  humErr : Counter
  rspValid : Bool
  rspStatus : BitVec 3
  rspConc : Conc
  txValid : Bool
  txData : Byte
  txFlush : Bool
  rxDiscard : Bool
  rxReq : Bool
  rxReady : Bool
  deriving DecidableEq, Repr

/-- `tx_valid`: the block offers a byte to send (R115: SEND with `tx_idx` < 9). -/
def State.txValid (s : State) : Bool :=
  s.fsm == .send && decide (s.txIdx.toNat < 9)

/-- `tx_data` = `FRAME(op)[tx_idx]` while `tx_valid` = 1 (R63); a free value otherwise (R115, log entry 7). -/
def State.txData (s : State) : Byte :=
  if s.txValid then (frameOf Config.hw s.op)[s.txIdx.toNat]?.getD 0 else Config.freeTxData s.cycle

/-- The outputs in the current cycle, per state as the table of R115 gives them. -/
def State.outputs (s : State) : Outputs where
  cmdReady := s.fsm == .idle && !s.pins.rst
  busy := s.busy
  avg := s.avg
  avgValid := s.avgValid
  co2Err := s.co2Err
  humErr := s.humErr
  rspValid := s.rspValid
  rspStatus := if s.rspValid then s.outcome.status else 0
  rspConc := if s.rspValid then s.outcome.conc else 0
  txValid := s.txValid
  txData := s.txData
  txFlush := s.fsm == .send && s.txIdx == 9
  rxDiscard := s.fsm == .discard
  rxReq := s.fsm == .recv
  rxReady := s.rxReady

end Sys2Proof.Machine
end

