-- ==== Sys2Proof/Machine/Transaction.lean ====
section
/-!
DEFINITION. The transaction-level summary of an exchange (spec/43_request_response_fsm.md R113): what a sending command
does from its acceptance to the return to IDLE, with no intermediate states. The steps of `Machine/Step.lean` are the
model; this is the handier view that claims compare them with.
-/

namespace Sys2Proof.Machine

/-- The bytes of a frame, byte 0 first (spec/20_memory.md R31). -/
def frameBytes (f : Frame) : List Byte :=
  f.toList

/-- `rx_buf` with the bytes stored from index `k` on, in arrival order (R106). -/
def storeBytes (buf : Frame) (k : Nat) : List Byte → Frame
  | [] => buf
  | b :: rest => storeBytes (buf.setIfInBounds k b) (k + 1) rest

/-- The calls of a poll up to the end of its read: `[discard_input, write(FRAME(READ)), flush, read(9) -> answer]`
(R113). -/
def pollTrace (answer : List Byte) : List Event :=
  [.discardInput] ++ (frameBytes (frameOf Config.hw .read)).map .sent ++ [.flushed] ++ answer.map .received

/-- The calls of a SET command: `[write(FRAME(op)), flush]` (R113). -/
def setTrace (o : Op) : List Event :=
  (frameBytes (frameOf Config.hw o)).map .sent ++ [.flushed]

/-- The state after a whole POLL_CO2 whose read returns `answer` (R113). -/
def State.pollSummary (s : State) (answer : List Byte) : State :=
  let buf := storeBytes s.rxBuf 0 answer
  { s with
    op := Op.read, txIdx := 9, rxCnt := BitVec.ofNat 4 answer.length, rxBuf := buf
    observed := s.observed ++ pollTrace answer }.commit (validate Config.hw answer.length buf)

/-- The state after a whole SET command (R113: it "changes only `op` and `tx_idx`"). -/
def State.setSummary (s : State) (o : Op) : State :=
  { s with op := o, txIdx := 9, observed := s.observed ++ setTrace o }

end Sys2Proof.Machine
end

