-- ==== Sys2Proof/Safety.lean ====
section
/-!
DEFINITION. What counts as a sound state and an orderly exchange, in the terms claims use (spec/10_state.md R21,
spec/20_memory.md R40, R41).
-/

namespace Sys2Proof.Machine

/-- The invariants of spec/10_state.md R21 and the facts about the exchange registers that R101 to R107 establish.
`count` ≤ 6 and `head` ≤ 5 hold by the types of the registers. -/
structure Inv (s : State) : Prop where
  /-- "`head` = 0 whenever `count` < 6" (R21). -/
  headZero : s.count.val < 6 → s.head = 0
  /-- "`sum` = Σ of the `count` window values" (R21). -/
  sumExact : s.sum.toNat = windowSum s.window
  /-- "if `count` > 0 then `avg` = `sum div count`" (R21). -/
  avgMean : s.count ≠ 0 → s.avg.toNat = s.sum.toNat / s.count.val
  /-- "if `count` = 0 then `avg` = 0" (R21). -/
  avgZero : s.count = 0 → s.avg = 0
  /-- Only POLL_CO2 enters DISCARD (R101). -/
  discardEntry : s.fsm = .discard → s.op = .read ∧ s.txIdx = 0
  /-- "`tx_idx` ≤ 9" once written (R21). -/
  txBound : s.fsm = .send → s.txIdx.toNat ≤ 9
  /-- The DISCARD step cleared `rx_cnt` (R103). -/
  sendFresh : s.fsm = .send → s.op = .read → s.rxCnt = 0
  /-- Only a READ exchange enters RECV, after its ninth byte (R105). -/
  recvEntry : s.fsm = .recv → s.op = .read ∧ s.txIdx = 9
  /-- "`rx_cnt` ≤ 9" once written (R21). -/
  rxBound : s.fsm = .recv → s.rxCnt.toNat ≤ 9

/-- The transport calls of the running exchange so far, as its registers tell them (spec/20_memory.md R40). -/
def State.exchangeSoFar (s : State) : List Event :=
  match s.fsm with
  | .idle => []
  | .discard => []
  | .send =>
    (if s.op = .read then [.discardInput] else [])
      ++ ((frameBytes (frameOf Config.hw s.op)).take s.txIdx.toNat).map .sent
  | .recv =>
    pollTrace ((frameBytes s.rxBuf).take s.rxCnt.toNat)

/-- The values on the status outputs other than `busy` (spec/30_encoding.md R62). -/
structure StatusOutputs where
  avg : Conc
  avgValid : Bool
  co2Err : Counter
  humErr : Counter
  deriving DecidableEq, Repr

/-- The status outputs of a state. -/
def State.statusOutputs (s : State) : StatusOutputs :=
  ⟨s.avg, s.avgValid, s.co2Err, s.humErr⟩

/-- The transitions of spec/43_request_response_fsm.md R100 that a step without reset may take, with staying where it
is. -/
def Fsm.mayGo : Fsm → Fsm → Bool
  | .idle, .idle => true
  | .idle, .discard => true
  | .idle, .send => true
  | .idle, .recv => false
  | .discard, .send => true
  | .discard, .idle => false
  | .discard, .discard => false
  | .discard, .recv => false
  | .send, .send => true
  | .send, .recv => true
  | .send, .idle => true
  | .send, .discard => false
  | .recv, .recv => true
  | .recv, .idle => true
  | .recv, .discard => false
  | .recv, .send => false

end Sys2Proof.Machine
end

