-- ==== Sys2Proof/Certificates/Slice0/Obligations.lean ====
section
/-!
DEFINITION. The statements for the provers, one `def Obligations.<Name> : Prop` each, in the order of OBLIGATIONS.json.
-/

open Sys2Proof Sys2Proof.Machine

/-! ### The checksum family (spec/40_checksum.md) -/

/-- CHK is the two's-complement negation of SUM7 (R70, R71): the sum of the seven bytes modulo 256, an 8-bit adder that
drops its carry giving the same; `(256 - SUM7) mod 256`; the same as inverting the bits and adding one. -/
def Obligations.ChecksumIsNegatedByteSum : Prop :=
  ∀ b1 b2 b3 b4 b5 b6 b7 : Byte,
    (sum7 b1 b2 b3 b4 b5 b6 b7).toNat
        = (b1.toNat + b2.toNat + b3.toNat + b4.toNat + b5.toNat + b6.toNat + b7.toNat) % 256
    ∧ sum7 b1 b2 b3 b4 b5 b6 b7 = b1 + b2 + b3 + b4 + b5 + b6 + b7
    ∧ (chk b1 b2 b3 b4 b5 b6 b7).toNat = (256 - (sum7 b1 b2 b3 b4 b5 b6 b7).toNat) % 256
    ∧ chk b1 b2 b3 b4 b5 b6 b7 = ~~~(sum7 b1 b2 b3 b4 b5 b6 b7) + 1

/-- Any permutation of the seven summed bytes has the same sum and checksum (R70: "the order of the bytes does not
matter"; R34, R75 (c)). -/
def Obligations.ChecksumIgnoresByteOrder : Prop :=
  ∀ b1 b2 b3 b4 b5 b6 b7 c1 c2 c3 c4 c5 c6 c7 : Byte,
    [b1, b2, b3, b4, b5, b6, b7].Perm [c1, c2, c3, c4, c5, c6, c7] →
      sum7 b1 b2 b3 b4 b5 b6 b7 = sum7 c1 c2 c3 c4 c5 c6 c7
      ∧ chk b1 b2 b3 b4 b5 b6 b7 = chk c1 c2 c3 c4 c5 c6 c7

/-- CHKOK holds exactly when bytes 1 to 8 sum to a multiple of 256, and every built frame passes it (R74). -/
def Obligations.IntactFramesSumToZero : Prop :=
  (∀ f : Frame,
    chkOk f = true ↔
      (f[1].toNat + f[2].toNat + f[3].toNat + f[4].toNat + f[5].toNat + f[6].toNat + f[7].toNat + f[8].toNat) % 256 = 0)
  ∧ ∀ (c : Config) (o p0 p1 p2 p3 p4 : Byte), chkOk (build c o p0 p1 p2 p3 p4) = true

/-- Changing exactly one of bytes 1 to 8 of an intact frame is always detected; byte 0 is not covered (R75 (a), (d)). -/
def Obligations.SingleByteCorruptionIsDetected : Prop :=
  (∀ (f : Frame) (i : Fin 9) (b : Byte), chkOk f = true → 1 ≤ i.val → b ≠ f[i] →
    chkOk (f.set i.val b i.isLt) = false)
  ∧ ∀ (f : Frame) (b : Byte), chkOk (f.set 0 b) = chkOk f

/-- The command ROM holds the four frames of R56: each BUILD of its opcode and payload, as bytes and as a 72-bit
value. That READ has the opcode 0x86 (D10) and that the payload A0 is ABC on (D33) are choices, not settled by the
spec's source: log entry 12. -/
def Obligations.RomHoldsTheFourFrames : Prop :=
  frameOf Config.hw .read = build Config.hw 0x86 0x00 0x00 0x00 0x00 0x00
  ∧ frameOf Config.hw .abcOff = build Config.hw 0x79 0x00 0x00 0x00 0x00 0x00
  ∧ frameOf Config.hw .abcOn = build Config.hw 0x79 0xA0 0x00 0x00 0x00 0x00
  ∧ frameOf Config.hw .range = build Config.hw 0x99 0x00 0x00 0x00 0x07 0xD0
  ∧ frameOf Config.hw .read = #v[0xFF, 0x01, 0x86, 0x00, 0x00, 0x00, 0x00, 0x00, 0x79]
  ∧ frameOf Config.hw .abcOff = #v[0xFF, 0x01, 0x79, 0x00, 0x00, 0x00, 0x00, 0x00, 0x86]
  ∧ frameOf Config.hw .abcOn = #v[0xFF, 0x01, 0x79, 0xA0, 0x00, 0x00, 0x00, 0x00, 0xE6]
  ∧ frameOf Config.hw .range = #v[0xFF, 0x01, 0x99, 0x00, 0x00, 0x00, 0x07, 0xD0, 0x8F]
  ∧ frameOfNumber 0xFF0186000000000079 = frameOf Config.hw .read
  ∧ frameOfNumber 0xFF0179000000000086 = frameOf Config.hw .abcOff
  ∧ frameOfNumber 0xFF0179A000000000E6 = frameOf Config.hw .abcOn
  ∧ frameOfNumber 0xFF019900000007D08F = frameOf Config.hw .range

/-! ### The frame parser (spec/41_frame_parser.md) -/

/-- The five conditions of R81 to R85 decide VALIDATE (R86), whatever the configured start byte, response code and
concentration indices; this hardware's are 0xFF, 0x85, 4 and 5. -/
def Obligations.ValidateFollowsTheFourChecks : Prop :=
  Config.hw.start = 0xFF ∧ Config.hw.respCode = 0x85 ∧ Config.hw.concHi = 4 ∧ Config.hw.concLo = 5
  ∧ ∀ (c : Config) (n : Nat) (b : Frame),
    (validate c n b = .incompleteResponse ↔ n < 9)
    ∧ (validate c n b = .badStartByte ↔ 9 ≤ n ∧ b[0] ≠ c.start)
    ∧ (validate c n b = .unexpectedResponseCode ↔ 9 ≤ n ∧ b[0] = c.start ∧ b[1] ≠ c.respCode)
    ∧ (validate c n b = .checksumMismatch ↔ 9 ≤ n ∧ b[0] = c.start ∧ b[1] = c.respCode ∧ chkOk b = false)
    ∧ ∀ v : Conc, (validate c n b = .ok v ↔
        9 ≤ n ∧ b[0] = c.start ∧ b[1] = c.respCode ∧ chkOk b = true
          ∧ v.toNat = 256 * b[c.concHi].toNat + b[c.concLo].toNat)

/-- This hardware's VALIDATE on nine bytes: start byte 0xFF, response code 0x85 at byte 1, the big-endian concentration
at bytes 4 and 5 (R82 to R85). -/
def Obligations.ValidReadingsAreAccepted : Prop :=
  ∀ (b : Frame) (v : Conc),
    validate Config.hw 9 b = .ok v ↔
      b[0] = 0xFF ∧ b[1] = 0x85
        ∧ (b[1].toNat + b[2].toNat + b[3].toNat + b[4].toNat + b[5].toNat + b[6].toNat + b[7].toNat + b[8].toNat) % 256 = 0
        ∧ v.toNat = 256 * b[4].toNat + b[5].toNat

/-- Bytes 2, 3, 6 and 7 of a response are not interpreted (R87). They take part in the checksum: with any values a
reading is accepted exactly when its last byte is the CHK of all of bytes 1 to 7. They take part in nothing else: frames
that agree on the other bytes that are looked at and on CHKOK have the same outcome. -/
def Obligations.MiddleBytesAreNotInterpreted : Prop :=
  (∀ r2 r3 h l r6 r7 k : Byte,
    (k = chk 0x85 r2 r3 h l r6 r7 →
      validate Config.hw 9 #v[0xFF, 0x85, r2, r3, h, l, r6, r7, k] = .ok (BitVec.ofNat 16 (256 * h.toNat + l.toNat)))
    ∧ (k ≠ chk 0x85 r2 r3 h l r6 r7 →
      validate Config.hw 9 #v[0xFF, 0x85, r2, r3, h, l, r6, r7, k] = .checksumMismatch))
  ∧ ∀ (n : Nat) (f g : Frame), f[0] = g[0] → f[1] = g[1] → f[4] = g[4] → f[5] = g[5] → chkOk f = chkOk g →
      validate Config.hw n f = validate Config.hw n g

/-- Status codes (R54): 0 for Ok with its concentration, 1 to 4 for the error kinds with 0, 5 to 7 never; code and value
tell all outcomes apart. -/
def Obligations.StatusCodesDistinguishOutcomes : Prop :=
  ∀ r : Reading,
    r.status.toNat ≤ 4
    ∧ (r = .incompleteResponse ↔ r.status = 1) ∧ (r = .badStartByte ↔ r.status = 2)
    ∧ (r = .unexpectedResponseCode ↔ r.status = 3) ∧ (r = .checksumMismatch ↔ r.status = 4)
    ∧ (∀ c, r = .ok c → r.conc = c)
    ∧ (r.status = 0 ↔ ∃ c, r = .ok c)
    ∧ (r.status ≠ 0 → r.conc = 0)
    ∧ (∀ r' : Reading, r.status = r'.status → r.conc = r'.conc → r = r')
    ∧ decodeStatus r.status = .ok r.row

/-! ### The moving-average filter (spec/42_moving_average.md) -/

/-- PUSH on the ring-buffer registers is PUSH on the window (R91, R93): the last six values in arrival order, the oldest
evicted; afterwards the window is not empty. In every state, with no assumption on the registers. -/
def Obligations.PushKeepsTheLastSixValues : Prop :=
  ∀ (r : Regs) (v : Conc),
    (r.push v).window = pushWindow 6 r.window v
    ∧ (r.push v).window.length = min (r.window.length + 1) 6
    ∧ (r.push v).avgValid = true

/-- In registers whose `sum` is that of a window with at least one value AVERAGE is the mean of the values present,
truncated toward zero, and never above the largest; with an empty window it is the old average (R92). PUSH keeps `sum`
exact, within 6 × 65535 (R93, R94). -/
def Obligations.AverageIsTheTruncatedMean : Prop :=
  (∀ r : Regs, r.sum.toNat = windowSum r.window → r.window ≠ [] →
    r.average.toNat = windowSum r.window / r.window.length
    ∧ ∀ m : Nat, (∀ w ∈ r.window, w.toNat ≤ m) → r.average.toNat ≤ m)
  ∧ (∀ (r : Regs) (v : Conc), r.sum.toNat = windowSum r.window →
    (r.push v).sum.toNat = windowSum (r.push v).window
    ∧ windowSum (r.push v).window ≤ 393210
    ∧ (r.push v).average.toNat = windowSum (r.push v).window / (r.push v).window.length)
  ∧ ∀ r : Regs, r.window = [] → r.average = r.avg

/-! ### Encodings (spec/30_encoding.md) -/

/-- Decode and encode agree for every well-formed instruction on its port (R50 to R57): no bit of an encoding is
dropped. -/
def Obligations.DecodeOfEncodeIsTheInstruction : Prop :=
  ∀ i : Instr, i.wellFormed = true → decode i.port (encode i) = .ok i

/-- Whatever the decoder accepts is the encoding of what it answers, on that instruction's port: each word has one
meaning on a port. -/
def Obligations.DecodedBytesAreTheEncoding : Prop :=
  ∀ (p : Port) (bytes : List Byte) (i : Instr), decode p bytes = .ok i → p = i.port ∧ encode i = bytes

/-- A few words written out from the tables under R51 to R54 and R56 decode to what they stand for. -/
def Obligations.WordsOfTheTableDecode : Prop :=
  decodeTableWord 8 0 = some .nop
  ∧ decodeTableWord 8 1 = some .pollCo2
  ∧ decodeTableWord 8 5 = some .clearErrors
  ∧ decodeTableWord 8 7 = some .reserved7
  ∧ decodeTableWord 72 0xFF0186000000000079 = some .frameRead
  ∧ decodeTableWord 72 0xFF019900000007D08F = some .frameRange2000
  ∧ decodeTableWord 72 0xFF0186000000000178 = some (.cfGeneric 0x86 0x00 0x00 0x00 0x00 0x01 0x78)
  ∧ decodeTableWord 72 0xFF85123401905678D6 = some (.rfCo2Reading 0x12 0x34 0x01 0x90 0x56 0x78 0xD6)
  ∧ decode .outcome [4] = .ok .stChecksumMismatch

/-- What the decoder refuses, and by which name: on the link, anything but nine bytes, a first byte other than 0xFF, a
second byte other than 0x01 and 0x85; on the two code ports, anything but one byte, a byte that is no 3-bit code, and
the status codes 5 to 7 (R50, R53, R54, R57, R58). Everything else it accepts. That it accepts a command frame with any
checksum byte, where R51 gives byte 8 one value and `Instr.checksumRight` is false of the term, is the model's choice:
log entry 9. -/
def Obligations.DecoderRefusesExactlyTheRest : Prop :=
  (∀ f : Frame, (f[0] ≠ 0xFF → decode .link (frameBytes f) = .error .badStartByte)
    ∧ (f[0] = 0xFF → f[1] ≠ 0x01 → f[1] ≠ 0x85 → decode .link (frameBytes f) = .error .unknownCode)
    ∧ (f[0] = 0xFF → f[1] = 0x01 ∨ f[1] = 0x85 → ∃ i, decode .link (frameBytes f) = .ok i))
  ∧ (∀ bytes : List Byte, bytes.length ≠ 9 → decode .link bytes = .error .notNineBytes)
  ∧ (∀ bytes : List Byte, bytes.length ≠ 1 →
    decode .command bytes = .error .notOneByte ∧ decode .outcome bytes = .error .notOneByte)
  ∧ (∀ b : Byte, (b.toNat < 8 → ∃ i, decode .command [b] = .ok i)
    ∧ (8 ≤ b.toNat → decode .command [b] = .error .codeTooWide))
  ∧ (∀ b : Byte, (b.toNat < 5 → ∃ i, decode .outcome [b] = .ok i)
    ∧ (5 ≤ b.toNat → b.toNat < 8 → decode .outcome [b] = .error .reservedStatus)
    ∧ (8 ≤ b.toNat → decode .outcome [b] = .error .codeTooWide))

/-- The three index spaces of R30 have exactly the elements R30 gives them: ROM and RXBUF 0 to 8, WIN 0 to 5. -/
def Obligations.IndexSpacesHaveTheirRanges : Prop :=
  ∀ (r : Regs) (o : Op) (i : Nat),
    ((memRead r (.rom o) i).isSome ↔ i < 9)
    ∧ ((memRead r .rxBuf i).isSome ↔ i < 9)
    ∧ ((memRead r .win i).isSome ↔ i < 6)

/-! ### Reset (spec/10_state.md R25, spec/70_reset_and_hazards.md R160, R161) -/

/-- The registers that R25 gives a reset value have it after reset, and the outputs are those of R25 in the first cycle.
The values that R25 leaves unspecified are the model's (log entry 1) and are not stated. -/
def Obligations.ResetLeavesTheGivenValues : Prop :=
  State.reset.fsm = .idle ∧ State.reset.head = 0 ∧ State.reset.count = 0 ∧ State.reset.sum = 0
  ∧ State.reset.avg = 0 ∧ State.reset.co2Err = 0 ∧ State.reset.humErr = 0
  ∧ State.reset.outputs.busy = false ∧ State.reset.outputs.avgValid = false
  ∧ State.reset.outputs.rspValid = false ∧ State.reset.outputs.rspStatus = 0 ∧ State.reset.outputs.rspConc = 0

/-- At every edge with `rst` = 1, whatever the state and the other inputs, the registers take the values of R25; no
command is ready, no event is produced (R160, R161); in the next cycle, with `rst` = 0, the outputs are those of the
idle block. That the transport keeps its bytes, also where a handshake stands on the ports in the cycle of the reset, is
the model's choice: log entries 4 and 18. -/
def Obligations.ResetEdgeOverridesEverything : Prop :=
  ∀ s : State, s.pins.rst = true →
    s.outputs.cmdReady = false
    ∧ ∃ t, step s = .next t
      ∧ t.fsm = .idle ∧ t.head = 0 ∧ t.count = 0 ∧ t.sum = 0 ∧ t.avg = 0 ∧ t.co2Err = 0 ∧ t.humErr = 0
      ∧ t.observed = s.observed
      ∧ t.linkIn = s.linkIn ++ s.pins.arrives ∧ t.linkOut = s.linkOut.drop s.pins.leaves
      ∧ (t.pins.rst = false → t.outputs.cmdReady = true)
      ∧ t.outputs.busy = false ∧ t.outputs.avgValid = false ∧ t.outputs.avg = 0
      ∧ t.outputs.co2Err = 0 ∧ t.outputs.humErr = 0 ∧ t.outputs.rspValid = false

/-! ### Invariants (spec/10_state.md R21) -/

/-- The invariant holds right after reset. -/
def Obligations.InvariantHoldsAtReset : Prop :=
  Inv State.reset

/-- Every step keeps the invariant, from every state that has it, under any inputs (R21). -/
def Obligations.EveryStepKeepsTheInvariant : Prop :=
  ∀ s t : State, Inv s → step s = .next t → Inv t

/-- No instruction and no step stops the machine: every outcome is a next state (R141; spec/93: "no operation traps, and
no input combination is illegal in a way that stops the block"). -/
def Obligations.NothingStopsTheBlock : Prop :=
  (∀ (i : Instr) (s : State), ∃ t, exec i s = .next t) ∧ ∀ s : State, ∃ t, step s = .next t

/-! ### The step (spec/43_request_response_fsm.md R101 to R107, R115) -/

/-- A step runs the decoded instruction: the command code presented in IDLE, the ROM frame being sent in SEND, the
received frame at `rx_cnt` = 9 in RECV. Around `exec` the step adds the end of the clock cycle: arrived bytes join the
transport's input buffer, transmitted bytes leave its output buffer, the next inputs come up. -/
def Obligations.StepRunsTheDecodedInstruction : Prop :=
  (∀ (s : State) (i : Instr), s.pins.rst = false →
    (s.fsm = .idle → s.pins.cmdValid = true → decode .command [s.pins.cmdCode.setWidth 8] = .ok i →
      step s = thenEndCycle (exec i s))
    ∧ (s.fsm = .send → decode .link (frameBytes (frameOf Config.hw s.op)) = .ok i →
      step s = thenEndCycle (exec i s))
    ∧ (s.fsm = .recv → s.rxCnt = 9 → decode .link (frameBytes s.rxBuf) = .ok i →
      step s = thenEndCycle (exec i s)))
  ∧ ∀ t : State, thenEndCycle (.next t) = .next { t with
      linkIn := t.linkIn ++ t.pins.arrives, linkOut := t.linkOut.drop t.pins.leaves,
      inputs := t.inputs.tail, cycle := t.cycle + 1 }

/-- The last cycle of RECV always runs the status row of the outcome that VALIDATE gives, whichever row its frame is
(R54, R61, R107): `rsp_status` on the outcome port tells what is committed. -/
def Obligations.CompletionRunsTheStatusRow : Prop :=
  ∀ s : State, s.pins.rst = false → s.rspValid = true →
    s.outputs.rspStatus = s.outcome.status ∧ s.outputs.rspConc = s.outcome.conc
    ∧ step s = thenEndCycle (exec s.outcome.row s)

/-- The DISCARD step (R103): `T.discard_input()`, `rx_cnt <- 0`, `fsm <- SEND`, always; no byte the transport held is
left (R42 (a)). That what arrives in this same cycle is kept is the model's choice: log entry 4. Only an accepted
POLL_CO2 leads to this step. -/
def Obligations.DiscardStepDropsStaleBytes : Prop :=
  (∀ s : State, s.fsm = .discard → s.pins.rst = false →
    s.outputs.rxDiscard = true
    ∧ step s = .next { s with
        fsm := .send, rxCnt := 0, observed := s.observed ++ [.discardInput]
        linkIn := s.pins.arrives, linkOut := s.linkOut.drop s.pins.leaves
        inputs := s.inputs.tail, cycle := s.cycle + 1 })
  ∧ ∀ s t : State, step s = .next t → t.fsm = .discard →
      s.fsm = .idle ∧ s.pins.rst = false ∧ s.pins.cmdValid = true ∧ s.pins.cmdCode = 1

/-- The RECV byte step (R106): the byte at the front of the transport's input buffer goes to `rx_buf[rx_cnt]`,
uninspected, and `rx_cnt` counts it; nothing else of the block changes. -/
def Obligations.ReceiveStepStoresTheNextByte : Prop :=
  ∀ (s : State) (b : Byte) (rest : List Byte), s.fsm = .recv → s.pins.rst = false → (h : s.rxCnt.toNat < 9) →
    s.pins.rxTimeout = false → s.pins.rxOffer = true → s.linkIn = b :: rest →
    step s = .next { s with
      rxBuf := s.rxBuf.set s.rxCnt.toNat b h, rxCnt := s.rxCnt + 1, observed := s.observed ++ [.received b]
      linkIn := rest ++ s.pins.arrives, linkOut := s.linkOut.drop s.pins.leaves
      inputs := s.inputs.tail, cycle := s.cycle + 1 }

/-- A timeout before the ninth byte ends the poll as IncompleteResponse, and wins over a byte offered in the same cycle,
which stays in the transport (R107, R81, D21). -/
def Obligations.TimeoutWinsOverAnOfferedByte : Prop :=
  ∀ s : State, s.fsm = .recv → s.pins.rst = false → s.rxCnt.toNat < 9 → s.pins.rxTimeout = true →
    s.outputs.rxReady = false
    ∧ step s = .next { s with
        fsm := .idle, co2Err := satInc s.co2Err, observed := s.observed ++ [.rsp 1 0]
        linkIn := s.linkIn ++ s.pins.arrives, linkOut := s.linkOut.drop s.pins.leaves
        inputs := s.inputs.tail, cycle := s.cycle + 1 }

/-- Waiting on the transport changes no register and produces no event (R154): in SEND for a byte to be taken or the
flush to complete, in RECV for a byte or the timeout. An idle cycle without a command changes nothing either. -/
def Obligations.WaitingChangesNoRegister : Prop :=
  ∀ s : State, s.pins.rst = false →
    (s.fsm = .send ∧ s.txIdx.toNat < 9 ∧ s.pins.txReady = false)
      ∨ (s.fsm = .send ∧ s.txIdx = 9 ∧ s.txEmpty = false)
      ∨ (s.fsm = .recv ∧ s.rxCnt.toNat < 9 ∧ s.pins.rxTimeout = false ∧ s.rxValid = false)
      ∨ (s.fsm = .idle ∧ s.pins.cmdValid = false) →
    ∃ t, step s = .next t ∧ t.toRegs = s.toRegs ∧ t.observed = s.observed

/-! ### The host commands (spec/43_request_response_fsm.md R101, spec/44_controller_ops.md) -/

/-- POLL_CO2 in IDLE (R101, R102): `op <- READ; tx_idx <- 0; fsm <- DISCARD`, and nothing else changes. -/
def Obligations.PollCo2StartsAnExchange : Prop :=
  ∀ s : State, s.fsm = .idle →
    exec .pollCo2 s = .next { s with op := .read, txIdx := 0, fsm := .discard }

/-- SET_ABC_OFF, SET_ABC_ON and SET_RANGE_2000 in IDLE (R101, R108 to R110): `op` selects the frame, `tx_idx <- 0`,
`fsm <- SEND`, with no discard, and nothing else changes. -/
def Obligations.SetCommandsStartSending : Prop :=
  ∀ s : State, s.fsm = .idle →
    exec .setAbcOff s = .next { s with op := .abcOff, txIdx := 0, fsm := .send }
    ∧ exec .setAbcOn s = .next { s with op := .abcOn, txIdx := 0, fsm := .send }
    ∧ exec .setRange2000 s = .next { s with op := .range, txIdx := 0, fsm := .send }
    ∧ ∀ b : Bool, exec (Instr.setAbc b) s
        = .next { s with op := if b then .abcOn else .abcOff, txIdx := 0, fsm := .send }

/-- CLEAR_ERRORS in IDLE (R132): both error counters to 0 in the same step, nothing else changed; in no other state is
it accepted. -/
def Obligations.ClearErrorsZeroesBothCounters : Prop :=
  ∀ s : State,
    (s.fsm = .idle → exec .clearErrors s = .next { s with co2Err := 0, humErr := 0 })
    ∧ (s.fsm ≠ .idle → exec .clearErrors s = .next s)

/-- HUM_FAIL in IDLE (R133): `hum_err` + 1, or unchanged at 2^32 − 1; nothing else changed; in no other state is it
accepted. -/
def Obligations.HumFailCountsOne : Prop :=
  ∀ s : State,
    (s.fsm = .idle → s.humErr.toNat < 2 ^ 32 - 1 → exec .humFail s = .next { s with humErr := s.humErr + 1 })
    ∧ (s.fsm = .idle → s.humErr.toNat = 2 ^ 32 - 1 → exec .humFail s = .next s)
    ∧ (s.fsm ≠ .idle → exec .humFail s = .next s)

/-- NOP and the reserved command code 7 change nothing, in any state (R134, R137). -/
def Obligations.NopAndReservedChangeNothing : Prop :=
  ∀ s : State, exec .nop s = .next s ∧ exec .reserved7 s = .next s

/-- A command presented while `fsm` ≠ IDLE is not accepted and has no effect (R101, R163): its meaning changes nothing,
and the step is the one it would be with any other command presented, or none. -/
def Obligations.BusyBlockTakesNoCommand : Prop :=
  (∀ (i : Instr) (s : State), i.port = .command → s.fsm ≠ .idle → exec i s = .next s)
  ∧ ∀ (s : State) (x : Inputs) (rest : List Inputs) (v : Bool) (c : BitVec 3), s.fsm ≠ .idle →
      s.outputs.cmdReady = false
      ∧ step { s with inputs := { x with cmdValid := v, cmdCode := c } :: rest } = step { s with inputs := x :: rest }

/-! ### Frames on the link (spec/30_encoding.md R51, R52, R56; spec/43_request_response_fsm.md R104, R105, R107) -/

/-- The row of the frame being sent hands over byte `tx_idx` of its encoding when the transport takes it (R104): the byte
stands on `tx_data` and joins the output buffer, `tx_idx` counts it, and nothing else changes. -/
def Obligations.RomRowsHandOverTheirBytes : Prop :=
  ∀ (s : State) (o : Op) (row : Instr) (b : Byte),
    (o, row) ∈ [(Op.read, Instr.frameRead), (Op.abcOff, Instr.frameAbcOff), (Op.abcOn, Instr.frameAbcOn),
      (Op.range, Instr.frameRange2000)] →
    s.fsm = .send → s.op = o → (encode row)[s.txIdx.toNat]? = some b → s.pins.txReady = true →
    s.outputs.txValid = true ∧ s.outputs.txData = b
    ∧ exec row s = .next { s with
        linkOut := s.linkOut ++ [b], txIdx := s.txIdx + 1, observed := s.observed ++ [.sent b] }

/-- FLUSH (R105): with all nine bytes handed over and transmitted, a READ exchange goes to RECV and a SET exchange to
IDLE, and nothing else changes. -/
def Obligations.RomRowsEndWithTheFlush : Prop :=
  ∀ s : State, s.fsm = .send → s.txIdx = 9 → s.pins.txReport = true → s.linkOut = [] →
    s.outputs.txFlush = true
    ∧ (s.op = .read → exec .frameRead s = .next { s with fsm := .recv, observed := s.observed ++ [.flushed] })
    ∧ (s.op = .abcOff → exec .frameAbcOff s = .next { s with fsm := .idle, observed := s.observed ++ [.flushed] })
    ∧ (s.op = .abcOn → exec .frameAbcOn s = .next { s with fsm := .idle, observed := s.observed ++ [.flushed] })
    ∧ (s.op = .range → exec .frameRange2000 s = .next { s with fsm := .idle, observed := s.observed ++ [.flushed] })

/-- A command frame that comes in as the response, the block's own echoed back or any other of format CF, ends the poll
as UnexpectedResponseCode whatever its checksum (R52, R83, R107; vector V29). That its link row runs it is log entry
9. -/
def Obligations.ReceivedCommandFramesAreUnexpected : Prop :=
  ∀ (s : State) (i : Instr),
    i ∈ [Instr.frameRead, .frameAbcOff, .frameAbcOn, .frameRange2000]
      ∨ (∃ o p0 p1 p2 p3 p4 k, i = .cfGeneric o p0 p1 p2 p3 p4 k) →
    s.fsm = .recv → s.rxCnt = 9 → frameBytes s.rxBuf = encode i →
    exec i s = .next { s with
      fsm := .idle, co2Err := satInc s.co2Err, observed := s.observed ++ [.rsp 3 0] }

/-- A received CO2 reading whose checksum is right is pushed, the average follows, the outcome is Ok with the big-endian
concentration; with a wrong checksum the poll fails as ChecksumMismatch and the filter is untouched (R84, R85, R107,
R130, R131). That its link row runs it is log entry 9. -/
def Obligations.ReceivedReadingIsCommitted : Prop :=
  ∀ (s : State) (r2 r3 h l r6 r7 k : Byte), s.fsm = .recv → s.rxCnt = 9 →
    frameBytes s.rxBuf = [0xFF, 0x85, r2, r3, h, l, r6, r7, k] →
    (k = chk 0x85 r2 r3 h l r6 r7 →
      exec (.rfCo2Reading r2 r3 h l r6 r7 k) s = .next { s with
        toRegs := { s.toRegs.push (BitVec.ofNat 16 (256 * h.toNat + l.toNat)) with
          avg := (s.toRegs.push (BitVec.ofNat 16 (256 * h.toNat + l.toNat))).average, fsm := .idle }
        observed := s.observed ++ [.rsp 0 (BitVec.ofNat 16 (256 * h.toNat + l.toNat))] })
    ∧ (k ≠ chk 0x85 r2 r3 h l r6 r7 →
      exec (.rfCo2Reading r2 r3 h l r6 r7 k) s = .next { s with
        fsm := .idle, co2Err := satInc s.co2Err, observed := s.observed ++ [.rsp 4 0] })

/-- Where a frame is not the one the block is sending, nor the one it has received whole, it changes nothing; a status
that is not on the outcome port changes nothing. The model's reading of a row outside its place (log entry 9). -/
def Obligations.RowsElsewhereChangeNothing : Prop :=
  (∀ (i : Instr) (s : State), i.port = .link →
    (s.fsm = .idle ∨ s.fsm = .discard
      ∨ (s.fsm = .send ∧ frameBytes (frameOf Config.hw s.op) ≠ encode i)
      ∨ (s.fsm = .recv ∧ (s.rxCnt ≠ 9 ∨ frameBytes s.rxBuf ≠ encode i))) →
    exec i s = .next s)
  ∧ ∀ (i : Instr) (s : State), i.port = .outcome →
      (s.rspValid = false ∨ s.outcome.row ≠ i) → exec i s = .next s

/-! ### Outcome statuses (spec/44_controller_ops.md R130, R131; spec/60_exceptions.md R147) -/

/-- Each error kind, at the completion it belongs to, is one step: `co2_err` + 1 (saturating), the outcome event with the
kind's code and the value 0, `fsm` to IDLE; nothing is saved and nothing else changes (R131, R147). -/
def Obligations.ErrorStatusesCountOneFailure : Prop :=
  ∀ s : State, s.fsm = .recv →
    (s.rxCnt.toNat < 9 → s.pins.rxTimeout = true →
      exec .stIncompleteResponse s = .next { s with
        fsm := .idle, co2Err := satInc s.co2Err, observed := s.observed ++ [.rsp 1 0] })
    ∧ (s.rxCnt = 9 → s.rxBuf[0] ≠ 0xFF →
      exec .stBadStartByte s = .next { s with
        fsm := .idle, co2Err := satInc s.co2Err, observed := s.observed ++ [.rsp 2 0] })
    ∧ (s.rxCnt = 9 → s.rxBuf[0] = 0xFF → s.rxBuf[1] ≠ 0x85 →
      exec .stUnexpectedResponseCode s = .next { s with
        fsm := .idle, co2Err := satInc s.co2Err, observed := s.observed ++ [.rsp 3 0] })
    ∧ (s.rxCnt = 9 → s.rxBuf[0] = 0xFF → s.rxBuf[1] = 0x85 → chkOk s.rxBuf = false →
      exec .stChecksumMismatch s = .next { s with
        fsm := .idle, co2Err := satInc s.co2Err, observed := s.observed ++ [.rsp 4 0] })

/-- An Ok outcome is one step: PUSH of the concentration, `avg` the average of the window after the push, the outcome
event `rsp(0, c)`, `fsm` to IDLE; neither error counter changes (R130). -/
def Obligations.OkStatusPushesAndAverages : Prop :=
  ∀ (s : State) (c : Conc), s.fsm = .recv → s.rxCnt = 9 → validate Config.hw 9 s.rxBuf = .ok c →
    ∃ t, exec .stOk s = .next t
      ∧ t.window = pushWindow 6 s.window c
      ∧ t.sum = (s.toRegs.push c).sum
      ∧ t.avg = (s.toRegs.push c).average
      ∧ t.avgValid = true
      ∧ t = { s with
          fsm := .idle, win := t.win, head := t.head, count := t.count, sum := t.sum, avg := t.avg
          observed := s.observed ++ [.rsp 0 c] }

/-- The counter increment: exactly one below 2^32 − 1, none at it, so a counter never wraps (R17, R18, R131, R169). -/
def Obligations.CountersSaturate : Prop :=
  ∀ v : Counter,
    (v.toNat < 2 ^ 32 - 1 → (satInc v).toNat = v.toNat + 1)
    ∧ (v.toNat = 2 ^ 32 - 1 → satInc v = v)
    ∧ v.toNat ≤ (satInc v).toNat

/-! ### Rules of the whole machine -/

/-- The FSM takes the transitions of R100 and no others, each exactly on its condition; a reset takes it to IDLE. -/
def Obligations.FsmTakesOnlyItsTransitions : Prop :=
  ∀ s t : State, step s = .next t →
    (s.pins.rst = true → t.fsm = .idle)
    ∧ (s.pins.rst = false →
      s.fsm.mayGo t.fsm = true
      ∧ (s.fsm = .idle → (t.fsm = .discard ↔ s.pins.cmdValid = true ∧ s.pins.cmdCode = 1))
      ∧ (s.fsm = .idle → (t.fsm = .send ↔
          s.pins.cmdValid = true ∧ (s.pins.cmdCode = 2 ∨ s.pins.cmdCode = 3 ∨ s.pins.cmdCode = 4)))
      ∧ (s.fsm = .send → (t.fsm = .recv ↔ s.txIdx = 9 ∧ s.txEmpty = true ∧ s.op = .read))
      ∧ (s.fsm = .send → (t.fsm = .idle ↔ s.txIdx = 9 ∧ s.txEmpty = true ∧ s.op ≠ .read))
      ∧ (s.fsm = .recv → (t.fsm = .idle ↔ s.rxCnt = 9 ∨ s.pins.rxTimeout = true)))

/-- `op` is written only by the acceptance of a sending command (R19), and by a reset. -/
def Obligations.OpChangesOnlyOnAcceptance : Prop :=
  ∀ s t : State, s.pins.rst = false → step s = .next t → t.op ≠ s.op →
    s.fsm = .idle ∧ s.pins.cmdValid = true
      ∧ ((s.pins.cmdCode = 1 ∧ t.op = .read) ∨ (s.pins.cmdCode = 2 ∧ t.op = .abcOff)
        ∨ (s.pins.cmdCode = 3 ∧ t.op = .abcOn) ∨ (s.pins.cmdCode = 4 ∧ t.op = .range))

/-- `rx_buf` is written only by the receive step, one byte at index `rx_cnt` (R11), and by a reset: the host cannot write
it. -/
def Obligations.ReceiveBufferIsWrittenOnlyByReceiving : Prop :=
  ∀ s t : State, s.pins.rst = false → step s = .next t → t.rxBuf ≠ s.rxBuf →
    s.fsm = .recv ∧ s.pins.rxTimeout = false
      ∧ ∃ (b : Byte) (rest : List Byte) (h : s.rxCnt.toNat < 9),
          s.linkIn = b :: rest ∧ t.rxBuf = s.rxBuf.set s.rxCnt.toNat b h ∧ t.rxCnt = s.rxCnt + 1

/-- Only the commit of an Ok poll, and a reset, change the window, its sum or the average (R16, R20, R95): and then as
PUSH and AVERAGE say. -/
def Obligations.FilterChangesOnlyByAnOkPoll : Prop :=
  ∀ s t : State, s.pins.rst = false → step s = .next t →
    (t.win = s.win ∧ t.head = s.head ∧ t.count = s.count ∧ t.sum = s.sum ∧ t.avg = s.avg)
    ∨ (s.rspValid = true ∧ ∃ c, s.outcome = .ok c
        ∧ t.window = pushWindow 6 s.window c ∧ t.sum = (s.toRegs.push c).sum ∧ t.avg = (s.toRegs.push c).average
        ∧ t.co2Err = s.co2Err ∧ t.humErr = s.humErr)

/-- `co2_err` counts failed polls (R17): it goes up, by one and saturating, exactly at the completion of a poll that ends
in an error kind; it goes to 0 at a reset and at an accepted CLEAR_ERRORS; it keeps its value at every other step. -/
def Obligations.Co2ErrCountsFailedPolls : Prop :=
  ∀ s t : State, step s = .next t →
    t.co2Err =
      if s.pins.rst = true then 0
      else if s.rspValid = true ∧ s.outcome.status ≠ 0 then satInc s.co2Err
      else if s.fsm = .idle ∧ s.pins.cmdValid = true ∧ s.pins.cmdCode = 5 then 0
      else s.co2Err

/-- `hum_err` counts HUM_FAIL commands accepted since reset or the last CLEAR_ERRORS, saturating (R18): no other step
touches it. -/
def Obligations.HumErrCountsHumFail : Prop :=
  ∀ s t : State, step s = .next t →
    t.humErr =
      if s.pins.rst = true then 0
      else if s.fsm = .idle ∧ s.pins.cmdValid = true ∧ s.pins.cmdCode = 6 then satInc s.humErr
      else if s.fsm = .idle ∧ s.pins.cmdValid = true ∧ s.pins.cmdCode = 5 then 0
      else s.humErr

/-- The status outputs other than `busy` change only at the commit of a poll, at an accepted CLEAR_ERRORS or HUM_FAIL, or
at a reset: in particular not during an exchange (R41, R112, R135, R136). -/
def Obligations.StatusOutputsHoldBetweenCommits : Prop :=
  ∀ s t : State, s.pins.rst = false → step s = .next t → s.rspValid = false →
    ¬ (s.fsm = .idle ∧ s.pins.cmdValid = true ∧ (s.pins.cmdCode = 5 ∨ s.pins.cmdCode = 6)) →
    t.statusOutputs = s.statusOutputs

/-- One outcome event per poll, at its commit (R61, R111): a step without reset emits `rsp` with the status and value on
the outcome port when `rsp_valid` = 1, after which the block is idle with `rsp_valid` = 0; otherwise none of the events
it emits is an outcome. -/
def Obligations.OneOutcomeEventPerPoll : Prop :=
  ∀ s t : State, s.pins.rst = false → step s = .next t →
    (s.rspValid = true →
      t.observed = s.observed ++ [.rsp s.outputs.rspStatus s.outputs.rspConc]
        ∧ t.fsm = .idle ∧ t.outputs.rspValid = false)
    ∧ (s.rspValid = false → ∃ evs, t.observed = s.observed ++ evs ∧ ∀ st c, Event.rsp st c ∉ evs)

/-- The transport keeps order and loses nothing but by the discard (R42, R114.4, R114.5): a step takes at most the oldest
byte of the input buffer, the one it stores; the DISCARD step drops all of it; bytes written join the output buffer in
order. Under any inputs, reset edges included. The buffers are the model's form of the transport: that arrivals in the
cycle of the discard are kept is log entry 4, that no byte is taken, delivered or dropped at a reset edge log entry
18. -/
def Obligations.LinkBuffersKeepOrder : Prop :=
  ∀ s t : State, step s = .next t →
    (t.linkIn =
      if s.pins.rst = true then s.linkIn ++ s.pins.arrives
      else if s.fsm = .discard then s.pins.arrives
      else if s.rxReady = true ∧ s.rxValid = true then s.linkIn.tail ++ s.pins.arrives
      else s.linkIn ++ s.pins.arrives)
    ∧ t.linkOut =
      (if s.pins.rst = false ∧ s.txValid = true ∧ s.pins.txReady = true then s.linkOut ++ [s.txData]
        else s.linkOut).drop s.pins.leaves

/-- No storage but the block's registers influences the block (R10): two states with equal registers, equal transport
buffers and equal inputs in this cycle have equal outputs (`tx_data` while it is meaningful) and, without a reset, step to
equal registers and buffers, whatever the rest of their records. -/
def Obligations.OnlyRegistersAndPortsMatter : Prop :=
  ∀ s s' t t' : State, s.toRegs = s'.toRegs → s.linkIn = s'.linkIn → s.linkOut = s'.linkOut → s.pins = s'.pins →
    s.pins.rst = false → step s = .next t → step s' = .next t' →
    t.toRegs = t'.toRegs ∧ t.linkIn = t'.linkIn ∧ t.linkOut = t'.linkOut
    ∧ { s.outputs with txData := 0 } = { s'.outputs with txData := 0 }
    ∧ (s.outputs.txValid = true → s.outputs.txData = s'.outputs.txData)

/-- The outputs in each state (R60 to R63, R115): the handshake outputs not listed for a state are 0 in it. That
`rsp_valid` follows its formula in a cycle with `rst` = 1 too is the model's reading: log entry 13. -/
def Obligations.OutputsFollowTheStateTable : Prop :=
  ∀ s : State,
    (s.outputs.busy = true ↔ s.fsm ≠ .idle)
    ∧ (s.outputs.avgValid = true ↔ s.count ≠ 0)
    ∧ s.outputs.avg = s.avg ∧ s.outputs.co2Err = s.co2Err ∧ s.outputs.humErr = s.humErr
    ∧ (s.outputs.cmdReady = true ↔ s.fsm = .idle ∧ s.pins.rst = false)
    ∧ (s.outputs.rxDiscard = true ↔ s.fsm = .discard)
    ∧ (s.outputs.txValid = true ↔ s.fsm = .send ∧ s.txIdx.toNat < 9)
    ∧ (∀ h : s.txIdx.toNat < 9, s.fsm = .send → s.outputs.txData = (frameOf Config.hw s.op)[s.txIdx.toNat])
    ∧ (s.outputs.txFlush = true ↔ s.fsm = .send ∧ s.txIdx = 9)
    ∧ (s.outputs.rxReq = true ↔ s.fsm = .recv)
    ∧ (s.outputs.rxReady = true ↔ s.fsm = .recv ∧ s.rxCnt.toNat < 9 ∧ s.pins.rxTimeout = false)
    ∧ (s.outputs.rspValid = true ↔ s.fsm = .recv ∧ (s.rxCnt = 9 ∨ s.pins.rxTimeout = true))
    ∧ (s.outputs.rspValid = true →
        s.outputs.rspStatus = (validate Config.hw s.rxCnt.toNat s.rxBuf).status
          ∧ s.outputs.rspConc = (validate Config.hw s.rxCnt.toNat s.rxBuf).conc)
    ∧ (s.outputs.rspValid = false → s.outputs.rspStatus = 0 ∧ s.outputs.rspConc = 0)

/-! ### Exchanges -/

/-- The exchange in order (R40, R111, R112): in a state that has the invariant and in which the events since the
acceptance are those its registers tell, every step without reset leaves it so while the exchange runs, and when it ends
the events are those of a whole exchange: for a poll discard, nine bytes of the READ frame, flush, the bytes read, one
outcome; for a SET command nine bytes of its frame and flush. An acceptance starts with none. Under any inputs. -/
def Obligations.ExchangeCallsStayInOrder : Prop :=
  (∀ (s t : State) (before : List Event), Inv s → s.pins.rst = false → s.fsm ≠ .idle →
    s.observed = before ++ s.exchangeSoFar → step s = .next t →
    (t.fsm ≠ .idle → t.observed = before ++ t.exchangeSoFar)
    ∧ (t.fsm = .idle →
        (s.op = .read → s.fsm = .recv ∧ t.observed = before ++ pollTrace ((frameBytes s.rxBuf).take s.rxCnt.toNat)
            ++ [.rsp s.outcome.status s.outcome.conc])
        ∧ (s.op ≠ .read → t.observed = before ++ setTrace s.op)))
  ∧ ∀ s t : State, s.pins.rst = false → s.fsm = .idle → step s = .next t →
      t.observed = s.observed ∧ t.exchangeSoFar = []

/-- The transaction-level summary (R113), reached by the steps: POLL_CO2 presented in any idle state, with an
always-ready transport whose read returns `answer` (0 to 9 bytes), comes after 13 + `len(answer)` edges (22 for a whole
frame: the acceptance edge and the 21 cycles of R115) to the state of R113, whatever inputs follow. -/
def Obligations.PollRunReachesItsSummary : Prop :=
  ∀ (s : State) (answer : List Byte) (rest : List Inputs), s.fsm = .idle → answer.length ≤ 9 →
    runSteps (13 + answer.length) { s with inputs := Script.poll s.linkOut.length answer ++ rest }
      = .next { s.pollSummary answer with
          linkIn := [], linkOut := [], inputs := rest, cycle := s.cycle + 13 + answer.length }

/-- A SET command's whole run (R113): eleven edges after which only `op` and `tx_idx` of the block differ, its frame has
been written and flushed, and nothing was read, whatever inputs follow. -/
def Obligations.SetRunReachesItsSummary : Prop :=
  ∀ (s : State) (code : BitVec 3) (o : Op) (rest : List Inputs), s.fsm = .idle →
    (code, o) ∈ [((2 : BitVec 3), Op.abcOff), (3, Op.abcOn), (4, Op.range)] →
    runSteps 11 { s with inputs := Script.set s.linkOut.length code ++ rest }
      = .next { s.setSummary o with linkOut := [], inputs := rest, cycle := s.cycle + 11 }
end

