-- ==== Sys2Proof/Laws/Filter.lean ====
section
/-!
SUPPORT. What PUSH leaves unchanged, field by field, and what it does to the fields it writes.
-/

namespace Sys2Proof.Machine

theorem Regs.push_full (r : Regs) (v : Conc) (h : r.count = 6) :
    r.push v = { r with
      sum := r.sum - zext19 r.win[r.head] + zext19 v
      win := r.win.set r.head.val v r.head.isLt
      head := ⟨(r.head.val + 1) % 6, Nat.mod_lt _ (by decide)⟩ } := by
  simp [Regs.push, h]

theorem Regs.push_notFull (r : Regs) (v : Conc) (h : r.count ≠ 6) :
    r.push v = { r with
      sum := r.sum + zext19 v
      win := r.win.set ((r.head.val + r.count.val) % 6) v (Nat.mod_lt _ (by decide))
      count := r.count + 1 } := by
  simp [Regs.push, h]

@[simp] theorem Regs.push_fsm (r : Regs) (v : Conc) : (r.push v).fsm = r.fsm := by unfold Regs.push; split <;> rfl
@[simp] theorem Regs.push_op (r : Regs) (v : Conc) : (r.push v).op = r.op := by unfold Regs.push; split <;> rfl
@[simp] theorem Regs.push_txIdx (r : Regs) (v : Conc) : (r.push v).txIdx = r.txIdx := by unfold Regs.push; split <;> rfl
@[simp] theorem Regs.push_rxCnt (r : Regs) (v : Conc) : (r.push v).rxCnt = r.rxCnt := by unfold Regs.push; split <;> rfl
@[simp] theorem Regs.push_rxBuf (r : Regs) (v : Conc) : (r.push v).rxBuf = r.rxBuf := by unfold Regs.push; split <;> rfl
@[simp] theorem Regs.push_avg (r : Regs) (v : Conc) : (r.push v).avg = r.avg := by unfold Regs.push; split <;> rfl
@[simp] theorem Regs.push_co2Err (r : Regs) (v : Conc) : (r.push v).co2Err = r.co2Err := by unfold Regs.push; split <;> rfl
@[simp] theorem Regs.push_humErr (r : Regs) (v : Conc) : (r.push v).humErr = r.humErr := by unfold Regs.push; split <;> rfl

theorem Regs.window_length (r : Regs) : r.window.length = r.count.val := by
  simp [Regs.window]

/-- The register `count` after a push: one more, and never more than six. -/
theorem Regs.push_count (r : Regs) (v : Conc) : (r.push v).count.val = min (r.count.val + 1) 6 := by
  by_cases h : r.count = 6
  · simp [Regs.push_full r v h, h]
  · have h6 : r.count.val ≠ 6 := fun e => h (Fin.ext e)
    have := r.count.isLt
    rw [Regs.push_notFull r v h]
    simp only [Fin.val_add]
    have : ((1 : Fin 7).val) = 1 := rfl
    omega

end Sys2Proof.Machine
end

