-- ==== Sys2Proof/Laws/State.lean ====
section
/-!
SUPPORT. One lemma per field per update of the state, each true by `rfl`. The block's twelve registers are reached
through `toRegs`, so an update that leaves them all alone has one lemma for them.
-/

namespace Sys2Proof.Machine

/-! #### `observe` -/

@[simp] theorem State.observe_toRegs (s : State) (e : Event) : (s.observe e).toRegs = s.toRegs := rfl
@[simp] theorem State.observe_linkIn (s : State) (e : Event) : (s.observe e).linkIn = s.linkIn := rfl
@[simp] theorem State.observe_linkOut (s : State) (e : Event) : (s.observe e).linkOut = s.linkOut := rfl
@[simp] theorem State.observe_inputs (s : State) (e : Event) : (s.observe e).inputs = s.inputs := rfl
@[simp] theorem State.observe_cycle (s : State) (e : Event) : (s.observe e).cycle = s.cycle := rfl
@[simp] theorem State.observe_observed (s : State) (e : Event) : (s.observe e).observed = s.observed ++ [e] := rfl
@[simp] theorem State.observe_pins (s : State) (e : Event) : (s.observe e).pins = s.pins := rfl

/-! #### `endCycle` -/

@[simp] theorem State.endCycle_toRegs (s : State) : (s.endCycle).toRegs = s.toRegs := rfl
@[simp] theorem State.endCycle_linkIn (s : State) : (s.endCycle).linkIn = s.linkIn ++ s.pins.arrives := rfl
@[simp] theorem State.endCycle_linkOut (s : State) : (s.endCycle).linkOut = s.linkOut.drop s.pins.leaves := rfl
@[simp] theorem State.endCycle_inputs (s : State) : (s.endCycle).inputs = s.inputs.tail := rfl
@[simp] theorem State.endCycle_cycle (s : State) : (s.endCycle).cycle = s.cycle + 1 := rfl
@[simp] theorem State.endCycle_observed (s : State) : (s.endCycle).observed = s.observed := rfl

/-! #### `resetEdge` -/

@[simp] theorem State.resetEdge_fsm (s : State) : (s.resetEdge).fsm = .idle := rfl
@[simp] theorem State.resetEdge_op (s : State) : (s.resetEdge).op = (Config.freeRegs s.cycle).op := rfl
@[simp] theorem State.resetEdge_txIdx (s : State) : (s.resetEdge).txIdx = (Config.freeRegs s.cycle).txIdx := rfl
@[simp] theorem State.resetEdge_rxCnt (s : State) : (s.resetEdge).rxCnt = (Config.freeRegs s.cycle).rxCnt := rfl
@[simp] theorem State.resetEdge_rxBuf (s : State) : (s.resetEdge).rxBuf = (Config.freeRegs s.cycle).rxBuf := rfl
@[simp] theorem State.resetEdge_win (s : State) : (s.resetEdge).win = (Config.freeRegs s.cycle).win := rfl
@[simp] theorem State.resetEdge_head (s : State) : (s.resetEdge).head = 0 := rfl
@[simp] theorem State.resetEdge_count (s : State) : (s.resetEdge).count = 0 := rfl
@[simp] theorem State.resetEdge_sum (s : State) : (s.resetEdge).sum = 0 := rfl
@[simp] theorem State.resetEdge_avg (s : State) : (s.resetEdge).avg = 0 := rfl
@[simp] theorem State.resetEdge_co2Err (s : State) : (s.resetEdge).co2Err = 0 := rfl
@[simp] theorem State.resetEdge_humErr (s : State) : (s.resetEdge).humErr = 0 := rfl
@[simp] theorem State.resetEdge_linkIn (s : State) : (s.resetEdge).linkIn = s.linkIn := rfl
@[simp] theorem State.resetEdge_linkOut (s : State) : (s.resetEdge).linkOut = s.linkOut := rfl
@[simp] theorem State.resetEdge_inputs (s : State) : (s.resetEdge).inputs = s.inputs := rfl
@[simp] theorem State.resetEdge_cycle (s : State) : (s.resetEdge).cycle = s.cycle := rfl
@[simp] theorem State.resetEdge_observed (s : State) : (s.resetEdge).observed = s.observed := rfl
@[simp] theorem State.resetEdge_pins (s : State) : (s.resetEdge).pins = s.pins := rfl

/-! #### `discardStep` -/

@[simp] theorem State.discardStep_fsm (s : State) : (s.discardStep).fsm = .send := rfl
@[simp] theorem State.discardStep_op (s : State) : (s.discardStep).op = s.op := rfl
@[simp] theorem State.discardStep_txIdx (s : State) : (s.discardStep).txIdx = s.txIdx := rfl
@[simp] theorem State.discardStep_rxCnt (s : State) : (s.discardStep).rxCnt = 0 := rfl
@[simp] theorem State.discardStep_rxBuf (s : State) : (s.discardStep).rxBuf = s.rxBuf := rfl
@[simp] theorem State.discardStep_win (s : State) : (s.discardStep).win = s.win := rfl
@[simp] theorem State.discardStep_head (s : State) : (s.discardStep).head = s.head := rfl
@[simp] theorem State.discardStep_count (s : State) : (s.discardStep).count = s.count := rfl
@[simp] theorem State.discardStep_sum (s : State) : (s.discardStep).sum = s.sum := rfl
@[simp] theorem State.discardStep_avg (s : State) : (s.discardStep).avg = s.avg := rfl
@[simp] theorem State.discardStep_co2Err (s : State) : (s.discardStep).co2Err = s.co2Err := rfl
@[simp] theorem State.discardStep_humErr (s : State) : (s.discardStep).humErr = s.humErr := rfl
@[simp] theorem State.discardStep_linkIn (s : State) : (s.discardStep).linkIn = [] := rfl
@[simp] theorem State.discardStep_linkOut (s : State) : (s.discardStep).linkOut = s.linkOut := rfl
@[simp] theorem State.discardStep_inputs (s : State) : (s.discardStep).inputs = s.inputs := rfl
@[simp] theorem State.discardStep_cycle (s : State) : (s.discardStep).cycle = s.cycle := rfl
@[simp] theorem State.discardStep_observed (s : State) : (s.discardStep).observed = s.observed ++ [.discardInput] := rfl
@[simp] theorem State.discardStep_pins (s : State) : (s.discardStep).pins = s.pins := rfl

/-! #### `commitError` -/

@[simp] theorem State.commitError_fsm (s : State) (k : BitVec 3) : (s.commitError k).fsm = .idle := rfl
@[simp] theorem State.commitError_op (s : State) (k : BitVec 3) : (s.commitError k).op = s.op := rfl
@[simp] theorem State.commitError_txIdx (s : State) (k : BitVec 3) : (s.commitError k).txIdx = s.txIdx := rfl
@[simp] theorem State.commitError_rxCnt (s : State) (k : BitVec 3) : (s.commitError k).rxCnt = s.rxCnt := rfl
@[simp] theorem State.commitError_rxBuf (s : State) (k : BitVec 3) : (s.commitError k).rxBuf = s.rxBuf := rfl
@[simp] theorem State.commitError_win (s : State) (k : BitVec 3) : (s.commitError k).win = s.win := rfl
@[simp] theorem State.commitError_head (s : State) (k : BitVec 3) : (s.commitError k).head = s.head := rfl
@[simp] theorem State.commitError_count (s : State) (k : BitVec 3) : (s.commitError k).count = s.count := rfl
@[simp] theorem State.commitError_sum (s : State) (k : BitVec 3) : (s.commitError k).sum = s.sum := rfl
@[simp] theorem State.commitError_avg (s : State) (k : BitVec 3) : (s.commitError k).avg = s.avg := rfl
@[simp] theorem State.commitError_co2Err (s : State) (k : BitVec 3) : (s.commitError k).co2Err = satInc s.co2Err := rfl
@[simp] theorem State.commitError_humErr (s : State) (k : BitVec 3) : (s.commitError k).humErr = s.humErr := rfl
@[simp] theorem State.commitError_linkIn (s : State) (k : BitVec 3) : (s.commitError k).linkIn = s.linkIn := rfl
@[simp] theorem State.commitError_linkOut (s : State) (k : BitVec 3) : (s.commitError k).linkOut = s.linkOut := rfl
@[simp] theorem State.commitError_inputs (s : State) (k : BitVec 3) : (s.commitError k).inputs = s.inputs := rfl
@[simp] theorem State.commitError_cycle (s : State) (k : BitVec 3) : (s.commitError k).cycle = s.cycle := rfl
@[simp] theorem State.commitError_observed (s : State) (k : BitVec 3) : (s.commitError k).observed = s.observed ++ [.rsp k 0] := rfl
@[simp] theorem State.commitError_pins (s : State) (k : BitVec 3) : (s.commitError k).pins = s.pins := rfl

/-! #### `commitOk`: the filter's registers are those of PUSH and AVERAGE, the others below -/

@[simp] theorem State.commitOk_fsm (s : State) (c : Conc) : (s.commitOk c).fsm = .idle := rfl
@[simp] theorem State.commitOk_win (s : State) (c : Conc) : (s.commitOk c).win = (s.toRegs.push c).win := rfl
@[simp] theorem State.commitOk_head (s : State) (c : Conc) : (s.commitOk c).head = (s.toRegs.push c).head := rfl
@[simp] theorem State.commitOk_count (s : State) (c : Conc) : (s.commitOk c).count = (s.toRegs.push c).count := rfl
@[simp] theorem State.commitOk_sum (s : State) (c : Conc) : (s.commitOk c).sum = (s.toRegs.push c).sum := rfl
@[simp] theorem State.commitOk_avg (s : State) (c : Conc) : (s.commitOk c).avg = (s.toRegs.push c).average := rfl
@[simp] theorem State.commitOk_linkIn (s : State) (c : Conc) : (s.commitOk c).linkIn = s.linkIn := rfl
@[simp] theorem State.commitOk_linkOut (s : State) (c : Conc) : (s.commitOk c).linkOut = s.linkOut := rfl
@[simp] theorem State.commitOk_inputs (s : State) (c : Conc) : (s.commitOk c).inputs = s.inputs := rfl
@[simp] theorem State.commitOk_cycle (s : State) (c : Conc) : (s.commitOk c).cycle = s.cycle := rfl
@[simp] theorem State.commitOk_observed (s : State) (c : Conc) : (s.commitOk c).observed = s.observed ++ [.rsp 0 c] := rfl
@[simp] theorem State.commitOk_pins (s : State) (c : Conc) : (s.commitOk c).pins = s.pins := rfl

end Sys2Proof.Machine
end

