-- ==== Sys2Proof/Laws/Ops.lean ====
section
/-!
SUPPORT. For each shared operation of Machine/Ops.lean, once, everything it can do.
-/

namespace Sys2Proof.Machine

theorem State.acceptSend_idle (s : State) (o : Op) (target : Fsm) (h : s.fsm = .idle) :
    s.acceptSend o target = { s with op := o, txIdx := 0, fsm := target } := by
  simp [State.acceptSend, h]

theorem State.acceptSend_busy (s : State) (o : Op) (target : Fsm) (h : s.fsm ≠ .idle) :
    s.acceptSend o target = s := by
  simp [State.acceptSend, h]

/-- The send step waits, hands over the byte at `tx_idx`, or ends the sending at the flush. -/
theorem State.sendStep_cases (s : State) :
    s.sendStep = s
    ∨ (∃ h : s.txIdx.toNat < 9, s.pins.txReady = true ∧ s.sendStep
        = { s with linkOut := s.linkOut ++ [(frameOf Config.hw s.op)[s.txIdx.toNat]], txIdx := s.txIdx + 1,
                   observed := s.observed ++ [.sent (frameOf Config.hw s.op)[s.txIdx.toNat]] })
    ∨ (s.txIdx = 9 ∧ s.txEmpty = true ∧ s.sendStep
        = { s with fsm := if s.op = .read then .recv else .idle, observed := s.observed ++ [.flushed] }) := by
  unfold State.sendStep
  split
  · rename_i h
    unfold State.sendByteStep
    split
    · exact .inr (.inl ⟨h, ‹_›, rfl⟩)
    · exact .inl rfl
  · split
    · unfold State.flushStep
      split
      · exact .inr (.inr ⟨‹_›, ‹_›, rfl⟩)
      · exact .inl rfl
    · exact .inl rfl

/-- The receive step waits, or stores the oldest byte of the transport's input buffer. -/
theorem State.recvByteStep_cases (s : State) :
    (s.recvByteStep = s ∧ ¬ (s.rxReady = true ∧ s.rxValid = true))
    ∨ ∃ (h : s.rxCnt.toNat < 9) (b : Byte) (rest : List Byte),
        s.rxReady = true ∧ s.rxValid = true ∧ s.linkIn = b :: rest ∧ s.recvByteStep
          = { s with linkIn := rest, rxBuf := s.rxBuf.set s.rxCnt.toNat b h, rxCnt := s.rxCnt + 1,
                     observed := s.observed ++ [.received b] } := by
  unfold State.recvByteStep
  split
  · rename_i h
    by_cases g : s.rxReady = true ∧ s.rxValid = true
    · rw [if_pos (by simp [g.1, g.2])]
      match hl : s.linkIn with
      | [] => exact absurd g.2 (by simp [State.rxValid, hl])
      | b :: rest => exact .inr ⟨h, b, rest, g.1, g.2, rfl, rfl⟩
    · rw [if_neg (by simpa using g)]
      exact .inl ⟨rfl, g⟩
  · rename_i h
    refine .inl ⟨rfl, fun g => h ?_⟩
    have := g.1
    simp only [State.rxReady, Bool.and_eq_true, decide_eq_true_eq] at this
    exact this.1.2

/-- The completion step is the commit of an Ok outcome or the one error entry, with the status of the outcome. -/
theorem State.complete_cases (s : State) :
    (∃ c, s.outcome = .ok c ∧ s.complete = s.commitOk c)
    ∨ (s.outcome.status ≠ 0 ∧ s.outcome.conc = 0 ∧ s.complete = s.commitError s.outcome.status) := by
  unfold State.complete State.commit
  cases s.outcome with
  | ok c => exact .inl ⟨c, rfl, rfl⟩
  | _ => exact .inr ⟨by decide, rfl, rfl⟩

theorem State.complete_fsm (s : State) : s.complete.fsm = .idle := by
  rcases s.complete_cases with ⟨c, -, h⟩ | ⟨-, -, h⟩ <;> simp [h]

theorem State.complete_observed (s : State) :
    s.complete.observed = s.observed ++ [.rsp s.outcome.status s.outcome.conc] := by
  rcases s.complete_cases with ⟨c, hc, h⟩ | ⟨-, hc, h⟩
  · simp [h, hc, Reading.status, Reading.conc]
  · rw [h, hc]; rfl

/-- A frame on the link does the send step, the completion, or nothing, by where it stands. -/
theorem State.onLink_cases (s : State) (f : Frame) :
    s.onLink f = s
    ∨ (s.fsm = .send ∧ frameOf Config.hw s.op = f ∧ s.onLink f = s.sendStep)
    ∨ (s.fsm = .recv ∧ s.rxCnt = 9 ∧ s.rxBuf = f ∧ s.onLink f = s.complete) := by
  unfold State.onLink
  cases h : s.fsm with
  | idle => exact .inl rfl
  | discard => exact .inl rfl
  | send =>
    by_cases hf : frameOf Config.hw s.op = f
    · exact .inr (.inl ⟨rfl, hf, if_pos hf⟩)
    · exact .inl (if_neg hf)
  | recv =>
    by_cases hf : s.rxCnt = 9 ∧ s.rxBuf = f
    · exact .inr (.inr ⟨rfl, hf.1, hf.2, if_pos hf⟩)
    · exact .inl (if_neg hf)

/-- A status on the outcome port does the completion, or nothing when it is not there. -/
theorem State.onStatus_cases (s : State) (k : BitVec 3) :
    (s.onStatus k = s ∧ ¬ (s.rspValid = true ∧ s.outcome.status = k))
    ∨ (s.rspValid = true ∧ s.outcome.status = k ∧ s.onStatus k = s.complete) := by
  unfold State.onStatus
  by_cases h : s.rspValid = true ∧ s.outcome.status = k
  · exact .inr ⟨h.1, h.2, if_pos (by simp [h.1, h.2])⟩
  · exact .inl ⟨if_neg (by simpa using h), h⟩

end Sys2Proof.Machine
end

