-- ==== Sys2Proof/Laws/PerInstr.lean ====
section
/-!
SUPPORT. Statements for all instructions, one lemma per constructor of `Instr` (LAWS.json).

EncodedSize: a row of the link has nine bytes of which the first is 0xFF (spec/30_encoding.md R50), a row of a code
port one byte holding a 3-bit code (R53, R54).
-/

namespace Sys2Proof.Laws.EncodedSize

/-- The size of the encoding of an instruction on its port. -/
def Statement (i : Instr) : Prop :=
  match i.port with
  | .link => (encode i).length = 9 ∧ (encode i).head? = some 0xFF
  | .command => ∃ b : Byte, encode i = [b] ∧ b.toNat < 8
  | .outcome => ∃ b : Byte, encode i = [b] ∧ b.toNat < 5

theorem nop : Statement .nop := ⟨0, rfl, by decide⟩
theorem pollCo2 : Statement .pollCo2 := ⟨1, rfl, by decide⟩
theorem setAbcOff : Statement .setAbcOff := ⟨2, rfl, by decide⟩
theorem setAbcOn : Statement .setAbcOn := ⟨3, rfl, by decide⟩
theorem setRange2000 : Statement .setRange2000 := ⟨4, rfl, by decide⟩
theorem clearErrors : Statement .clearErrors := ⟨5, rfl, by decide⟩
theorem humFail : Statement .humFail := ⟨6, rfl, by decide⟩
theorem reserved7 : Statement .reserved7 := ⟨7, rfl, by decide⟩
theorem frameRead : Statement .frameRead := ⟨rfl, rfl⟩
theorem frameAbcOff : Statement .frameAbcOff := ⟨rfl, rfl⟩
theorem frameAbcOn : Statement .frameAbcOn := ⟨rfl, rfl⟩
theorem frameRange2000 : Statement .frameRange2000 := ⟨rfl, rfl⟩
theorem cfGeneric (o p0 p1 p2 p3 p4 k : Byte) : Statement (.cfGeneric o p0 p1 p2 p3 p4 k) := ⟨rfl, rfl⟩
theorem rfCo2Reading (r2 r3 h l r6 r7 k : Byte) : Statement (.rfCo2Reading r2 r3 h l r6 r7 k) := ⟨rfl, rfl⟩
theorem stOk : Statement .stOk := ⟨0, rfl, by decide⟩
theorem stIncompleteResponse : Statement .stIncompleteResponse := ⟨1, rfl, by decide⟩
theorem stBadStartByte : Statement .stBadStartByte := ⟨2, rfl, by decide⟩
theorem stUnexpectedResponseCode : Statement .stUnexpectedResponseCode := ⟨3, rfl, by decide⟩
theorem stChecksumMismatch : Statement .stChecksumMismatch := ⟨4, rfl, by decide⟩

end Sys2Proof.Laws.EncodedSize
end

