-- ==== Sys2Proof/Laws/Run.lean ====
section
/-!
SUPPORT. Runs of several clock edges.
-/

namespace Sys2Proof.Machine

/-- Running the machine's steps is the host's run of it. -/
theorem run_core (n : Nat) (s : State) : Host.Core.run Sys2Proof.core n s = runSteps n s := by
  induction n generalizing s with
  | zero => rfl
  | succ n ih =>
    have unfolded : ∀ o : Host.Outcome State Fault Refusal, step s = o →
        Host.Core.run Sys2Proof.core (n + 1) s
          = Host.Outcome.casesOn o (fun t => Host.Core.run Sys2Proof.core n t) Host.Outcome.fault Host.Outcome.refused := by
      intro o h
      have e := Host.Core.run.eq_2 Sys2Proof.core s n
      have h' : Sys2Proof.core.step s = o := h
      rw [h'] at e
      cases o <;> exact e
    unfold runSteps
    rw [unfolded _ rfl]
    cases step s with
    | next t => exact ih t
    | fault r => rfl
    | refused r => rfl

/-- One edge, then the rest. -/
theorem runSteps_next (n : Nat) (s t : State) (h : step s = .next t) : runSteps (n + 1) s = runSteps n t := by
  simp [runSteps, h]

end Sys2Proof.Machine
end

