-- ==== Sys2Proof/Laws/Step.lean ====
section
/-!
SUPPORT. The step, one equation per row of the state table (spec/43_request_response_fsm.md R115).
-/

namespace Sys2Proof.Machine

theorem step_reset (s : State) (h : s.pins.rst = true) : step s = .next s.resetEdge.endCycle := by
  simp [step, h]

theorem step_idle (s : State) (r : s.pins.rst = false) (h : s.fsm = .idle) (v : s.pins.cmdValid = false) :
    step s = .next s.endCycle := by
  simp [step, r, State.fetch, h, v, State.internalStep]

theorem step_command (s : State) (r : s.pins.rst = false) (h : s.fsm = .idle) (v : s.pins.cmdValid = true) :
    step s = thenEndCycle (exec (decodeCommand s.pins.cmdCode) s) := by
  simp [step, r, State.fetch, h, v]

theorem step_discard (s : State) (r : s.pins.rst = false) (h : s.fsm = .discard) :
    step s = .next s.discardStep.endCycle := by
  simp [step, r, State.fetch, h, State.internalStep]

/-- The ROM frame of each selector decodes to its own row. -/
theorem decodeFrame_rom (o : Op) :
    decodeFrame (frameOf Config.hw o) = .ok (match o with
      | .read => .frameRead | .abcOff => .frameAbcOff | .abcOn => .frameAbcOn | .range => .frameRange2000) := by
  cases o <;> decide

theorem step_send (s : State) (r : s.pins.rst = false) (h : s.fsm = .send) :
    step s = .next s.sendStep.endCycle := by
  have key : ∀ f, frameOf Config.hw s.op = f → s.onLink f = s.sendStep := fun f hf => by
    simp [State.onLink, h, hf]
  cases ho : s.op <;>
    · have hd := decodeFrame_rom s.op
      rw [ho] at hd
      simp only [step, r, State.fetch, h, ho, hd, Except.toOption]
      exact congrArg (fun t => Host.Outcome.next (State.endCycle t)) (key _ (by rw [ho]; decide))

/-- Running the row of a received frame in the last cycle of RECV is the completion step. -/
theorem exec_receivedRow (s : State) (h : s.rspValid = true) : exec s.receivedRow s = .next s.complete := by
  have hf : s.fsm = .recv := by
    simp only [State.rspValid, Bool.and_eq_true, beq_iff_eq] at h
    exact h.1
  have status : exec s.outcome.row s = .next s.complete := by
    rcases ho : s.outcome with c | _ | _ | _ | _ <;>
      simp [Reading.row, exec, execStOk, execStIncompleteResponse, execStBadStartByte, execStUnexpectedResponseCode,
        execStChecksumMismatch, State.onStatus, h, ho, Reading.status]
  unfold State.receivedRow
  split
  · rename_i h9
    have key : ∀ f, s.rxBuf = f → s.onLink f = s.complete := fun f e => by
      simp [State.onLink, hf, h9, e]
    have nine : ∀ a b, s.rxBuf[0] = a → s.rxBuf[1] = b → s.rxBuf
        = #v[a, b, s.rxBuf[2], s.rxBuf[3], s.rxBuf[4], s.rxBuf[5], s.rxBuf[6], s.rxBuf[7], s.rxBuf[8]] := by
      rintro a b rfl rfl
      ext i hi
      match i, hi with
      | 0, _ | 1, _ | 2, _ | 3, _ | 4, _ | 5, _ | 6, _ | 7, _ | 8, _ => rfl
    unfold decodeFrame
    split_ifs with c1 c2 c3 c4 c5 c6 c7
    · exact congrArg Host.Outcome.next (key _ c1)
    · exact congrArg Host.Outcome.next (key _ c2)
    · exact congrArg Host.Outcome.next (key _ c3)
    · exact congrArg Host.Outcome.next (key _ c4)
    · exact status
    · exact congrArg Host.Outcome.next (key _ (nine _ _ (not_not.mp c5) c6))
    · exact congrArg Host.Outcome.next (key _ (nine _ _ (not_not.mp c5) c7))
    · exact status
  · exact status

theorem step_complete (s : State) (r : s.pins.rst = false) (h : s.rspValid = true) :
    step s = .next s.complete.endCycle := by
  have hf : s.fsm = .recv := by
    simp only [State.rspValid, Bool.and_eq_true, beq_iff_eq] at h
    exact h.1
  simp [step, r, State.fetch, hf, h, exec_receivedRow s h, thenEndCycle]

theorem step_receive (s : State) (r : s.pins.rst = false) (hf : s.fsm = .recv) (h : s.rspValid = false) :
    step s = .next s.recvByteStep.endCycle := by
  simp [step, r, State.fetch, hf, h, State.internalStep]

end Sys2Proof.Machine
end

