-- ==== Sys2Proof/Tests/Slice0.lean ====
section
/-!
SUPPORT. The model's own tests: well-formedness, decoding of words written out from spec/30_encoding.md, single steps
from the vectors of spec/95_test_vectors.md (S and V numbers), and a witness for the hypotheses of each statement.
-/

namespace Sys2Proof.Tests

open Sys2Proof.Machine

/-! ### Helpers -/

/-- The state an outcome goes on with, or the given one. -/
def nextOr (d : State) (o : Host.Outcome State Fault Refusal) : State :=
  match o with
  | .next t => t
  | .fault _ => d
  | .refused _ => d

/-- The state after one step. -/
def after (s : State) : State := nextOr s (step s)

/-- The state after one instruction. -/
def ran (i : Instr) (s : State) : State := nextOr s (exec i s)

/-- Reset, with the given first sample of the inputs. -/
def withInput (x : Inputs) : State := { State.reset with inputs := [x, Inputs.quiet] }

/-- The idle block with the given command presented. -/
def presenting (c : BitVec 3) : State := withInput (Script.present c)

/-- Sending the frame of `o`, `k` bytes handed over, the transport taking a byte. -/
def sending (o : Op) (k : BitVec 4) : State :=
  { withInput { Inputs.quiet with txReady := true } with fsm := .send, op := o, txIdx := k }

/-- Flushing after the frame of `o`, the transport empty and saying so. -/
def flushing (o : Op) : State :=
  { withInput { Inputs.quiet with txReport := true } with fsm := .send, op := o, txIdx := 9 }

/-- Receiving, with `k` bytes in the buffer `f` and the first sample `x`. -/
def receiving (k : BitVec 4) (f : Frame) (x : Inputs) : State :=
  { withInput x with fsm := .recv, op := .read, txIdx := 9, rxCnt := k, rxBuf := f }

/-- The block after the ninth byte of `f`. -/
def received (f : Frame) : State := receiving 9 f Inputs.quiet

/-- `FF 85 00 00 01 90 00 00 EA`, the reading 400 (V33). -/
def reading400 : Frame := #v[0xFF, 0x85, 0x00, 0x00, 0x01, 0x90, 0x00, 0x00, 0xEA]

/-- The same with a corrupted last byte (V31). -/
def corrupted400 : Frame := #v[0xFF, 0x85, 0x00, 0x00, 0x01, 0x90, 0x00, 0x00, 0xEB]

/-- The block's own READ command echoed back (V29). -/
def echoedRead : Frame := #v[0xFF, 0x01, 0x86, 0x00, 0x00, 0x00, 0x00, 0x00, 0x79]

/-- Nine zero bytes (V26). -/
def zeros : Frame := #v[0x00, 0x00, 0x00, 0x00, 0x00, 0x00, 0x00, 0x00, 0x00]

/-- The full window of V45: `win` = [100,200,300,400,500,600], `head` = 0, `count` = 6, `sum` = 2100. -/
def fullWindow : Regs :=
  { State.reset.toRegs with win := #v[100, 200, 300, 400, 500, 600], count := 6, sum := 2100, avg := 350 }

/-! ### Well-formedness -/

/-- A CF_GENERIC term with a wrong checksum field is ill-formed (S1: the document's literal, R51). -/
theorem test_wellFormed_refuses_wrong_checksum :
    (Instr.cfGeneric 0x85 0 0 0 0 0 0x79).checksumRight = false
    ∧ (Instr.cfGeneric 0x85 0 0 0 0 0 0x79).wellFormed = false := by decide

/-- A CF_GENERIC term that is a frame of the ROM is ill-formed (R56). -/
theorem test_wellFormed_refuses_rom_frame :
    (Instr.cfGeneric 0x86 0 0 0 0 0 0x79).notRomFrame = false
    ∧ (Instr.cfGeneric 0x79 0 0 0 0 0 0x86).notRomFrame = false
    ∧ (Instr.cfGeneric 0x79 0xA0 0 0 0 0 0xE6).notRomFrame = false
    ∧ (Instr.cfGeneric 0x99 0 0 0 7 0xD0 0x8F).wellFormed = false := by decide

/-- V8: opcode 0x85 with a zero payload has the checksum 0x7A. -/
theorem test_wellFormed_accepts : (Instr.cfGeneric 0x85 0 0 0 0 0 0x7A).wellFormed = true := by decide

/-! ### Decoding: every constructor by a word written out from the encoding tables (R51 to R57) -/

theorem test_decode_nop : decodeTableWord 8 0b000 = some .nop := by decide
theorem test_decode_pollCo2 : decodeTableWord 8 0b001 = some .pollCo2 := by decide
theorem test_decode_setAbcOff : decodeTableWord 8 0b010 = some .setAbcOff := by decide
theorem test_decode_setAbcOn : decodeTableWord 8 0b011 = some .setAbcOn := by decide
theorem test_decode_setRange2000 : decodeTableWord 8 0b100 = some .setRange2000 := by decide
theorem test_decode_clearErrors : decodeTableWord 8 0b101 = some .clearErrors := by decide
theorem test_decode_humFail : decodeTableWord 8 0b110 = some .humFail := by decide
theorem test_decode_reserved7 : decodeTableWord 8 0b111 = some .reserved7 := by decide
theorem test_decode_frameRead : decodeTableWord 72 0xFF_01_86_00_00_00_00_00_79 = some .frameRead := by decide
theorem test_decode_frameAbcOff : decodeTableWord 72 0xFF_01_79_00_00_00_00_00_86 = some .frameAbcOff := by decide
theorem test_decode_frameAbcOn : decodeTableWord 72 0xFF_01_79_A0_00_00_00_00_E6 = some .frameAbcOn := by decide
theorem test_decode_frameRange2000 : decodeTableWord 72 0xFF_01_99_00_00_00_07_D0_8F = some .frameRange2000 := by decide
/-- Fields o, a to e, k of the table's encoding, each with a value of its own. -/
theorem test_decode_cfGeneric :
    decodeTableWord 72 0xFF_01_11_22_33_44_55_66_9A = some (.cfGeneric 0x11 0x22 0x33 0x44 0x55 0x66 0x9A) := by decide
/-- V34. -/
theorem test_decode_rfCo2Reading :
    decodeTableWord 72 0xFF_85_12_34_01_90_56_78_D6
      = some (.rfCo2Reading 0x12 0x34 0x01 0x90 0x56 0x78 0xD6) := by decide
theorem test_decode_stOk : decode .outcome [0b000] = .ok .stOk := by rfl
theorem test_decode_stIncompleteResponse : decode .outcome [0b001] = .ok .stIncompleteResponse := by rfl
theorem test_decode_stBadStartByte : decode .outcome [0b010] = .ok .stBadStartByte := by rfl
theorem test_decode_stUnexpectedResponseCode : decode .outcome [0b011] = .ok .stUnexpectedResponseCode := by rfl
theorem test_decode_stChecksumMismatch : decode .outcome [0b100] = .ok .stChecksumMismatch := by rfl

/-- R65: `SET_ABC b` is the command code `{0b01, b}`. -/
theorem test_setAbc_code : encode (Instr.setAbc false) = [0b010] ∧ encode (Instr.setAbc true) = [0b011] := by decide

/-! ### Checksum and parser vectors -/

/-- V1 to V9: SUM7 and CHK. -/
theorem test_chk_vectors :
    chk 0 0 0 0 0 0 0 = 0x00
    ∧ sum7 0xFF 0xFF 0xFF 0xFF 0xFF 0xFF 0xFF = 0xF9 ∧ chk 0xFF 0xFF 0xFF 0xFF 0xFF 0xFF 0xFF = 0x07
    ∧ chk 0x80 0 0 0 0 0 0 = 0x80 ∧ chk 0x01 0 0 0 0 0 0 = 0xFF ∧ chk 0xFF 0 0 0 0 0 0 = 0x01
    ∧ chk 0xFF 0x01 0 0 0 0 0 = 0x00 ∧ chk 0x85 0x7B 0 0 0 0 0 = 0x00 ∧ chk 0x01 0x85 0 0 0 0 0 = 0x7A
    ∧ sum7 0 0 0x01 0x90 0x85 0 0 = 0x16 ∧ chk 0 0 0x01 0x90 0x85 0 0 = 0xEA := by decide

/-- V10 to V15: CHKOK. -/
theorem test_chkOk_vectors :
    chkOk reading400 = true ∧ chkOk corrupted400 = false
    ∧ chkOk #v[0xFF, 0x85, 0x00, 0x00, 0x01, 0x91, 0x00, 0x00, 0xEA] = false
    ∧ chkOk #v[0xFF, 0x85, 0x00, 0x00, 0x02, 0x8F, 0x00, 0x00, 0xEA] = true
    ∧ chkOk #v[0xFF, 0x00, 0x00, 0x00, 0x00, 0x00, 0x00, 0x00, 0x00] = true
    ∧ chkOk #v[0x00, 0x85, 0x00, 0x00, 0x01, 0x90, 0x00, 0x00, 0xEA] = true := by decide

/-- V22, V24, V26, V27, V31, V36, V38, V39: VALIDATE. -/
theorem test_validate_vectors :
    validate Config.hw 8 reading400 = .incompleteResponse
    ∧ validate Config.hw 9 #v[0xFE, 0x85, 0x00, 0x00, 0x01, 0x90, 0x00, 0x00, 0xEA] = .badStartByte
    ∧ validate Config.hw 9 zeros = .badStartByte
    ∧ validate Config.hw 9 #v[0xFF, 0x86, 0x00, 0x00, 0x01, 0x90, 0x00, 0x00, 0xE9] = .unexpectedResponseCode
    ∧ validate Config.hw 9 corrupted400 = .checksumMismatch
    ∧ validate Config.hw 9 #v[0xFF, 0x85, 0x00, 0x00, 0xFF, 0xFF, 0x00, 0x00, 0x7D] = .ok 65535
    ∧ validate Config.hw 9 #v[0xFF, 0x85, 0x00, 0x00, 0x90, 0x01, 0x00, 0x00, 0xEA] = .ok 36865
    ∧ validate Config.hw 9 #v[0xFF, 0x85, 0x7B, 0x00, 0x00, 0x00, 0x00, 0x00, 0x00] = .ok 0 := by decide

/-- V45: PUSH(700) into the full window. -/
theorem test_push_evicts_oldest :
    (fullWindow.push 700).win = #v[700, 200, 300, 400, 500, 600] ∧ (fullWindow.push 700).head = 1
    ∧ (fullWindow.push 700).sum = 2700 ∧ (fullWindow.push 700).average = 450
    ∧ (fullWindow.push 700).window = [200, 300, 400, 500, 600, 700] := by decide

/-- V42: the average of [1, 2] is 1. -/
theorem test_average_truncates : ((State.reset.toRegs.push 1).push 2).average = 1 := by decide

/-! ### One step or one instruction each -/

/-- V67, V68. -/
theorem test_nop_reserved7 : ran .nop (presenting 0) = presenting 0 ∧ ran .reserved7 (presenting 7) = presenting 7 := by
  decide

/-- The edge 0 of the trace of V50. -/
theorem test_pollCo2_accepted :
    (after (presenting 1)).fsm = .discard ∧ (after (presenting 1)).txIdx = 0
    ∧ (after (presenting 1)).outputs.rxDiscard = true ∧ (after (presenting 1)).cycle = 1 := by decide

/-- V53: SET_ABC_OFF sends without a discard. -/
theorem test_setAbcOff_accepted :
    (after (presenting 2)).fsm = .send ∧ (after (presenting 2)).op = .abcOff := by decide

/-- V52. -/
theorem test_setAbcOn_accepted :
    (after (presenting 3)).fsm = .send ∧ (after (presenting 3)).op = .abcOn := by decide

/-- V54. -/
theorem test_setRange2000_accepted :
    (after (presenting 4)).fsm = .send ∧ (after (presenting 4)).op = .range := by decide

/-- V66: both counters to 0, the average kept. -/
theorem test_clearErrors :
    (after { presenting 5 with co2Err := 3, humErr := 1, avg := 405 }).co2Err = 0
    ∧ (after { presenting 5 with co2Err := 3, humErr := 1, avg := 405 }).humErr = 0
    ∧ (after { presenting 5 with co2Err := 3, humErr := 1, avg := 405 }).avg = 405 := by decide

/-- V56: CLEAR_ERRORS presented in SEND is not accepted. -/
theorem test_clearErrors_busy : (ran .clearErrors { sending .read 0 with co2Err := 3 }).co2Err = 3 := by decide

/-- V64. -/
theorem test_humFail : (after (presenting 6)).humErr = 1 ∧ (after (presenting 6)).co2Err = 0 := by decide

/-- V65: saturation. -/
theorem test_humFail_saturates :
    (after { presenting 6 with humErr := 4294967295 }).humErr = 4294967295 := by decide

/-- Cycles 1 and 9 of the trace of V50: `tx_data` = FF first, 79 last. -/
theorem test_frameRead_sends :
    (after (sending .read 0)).observed = [.sent 0xFF] ∧ (after (sending .read 8)).observed = [.sent 0x79]
    ∧ (after (sending .read 8)).txIdx = 9 := by decide

/-- Cycle 10 of the trace of V50: after the flush of a READ exchange the block receives. -/
theorem test_frameRead_flush : (after (flushing .read)).fsm = .recv := by decide

/-- V53: the opcode byte of the frame. -/
theorem test_frameAbcOff : (ran .frameAbcOff (sending .abcOff 2)).observed = [.sent 0x79]
    ∧ (ran .frameAbcOff (flushing .abcOff)).fsm = .idle := by decide

/-- V52: the payload byte A0. -/
theorem test_frameAbcOn : (ran .frameAbcOn (sending .abcOn 3)).observed = [.sent 0xA0]
    ∧ (ran .frameAbcOn (flushing .abcOn)).fsm = .idle := by decide

/-- V54: the payload bytes 07 and D0. -/
theorem test_frameRange2000 : (ran .frameRange2000 (sending .range 6)).observed = [.sent 0x07]
    ∧ (ran .frameRange2000 (sending .range 7)).observed = [.sent 0xD0] := by decide

/-- A command frame as the response: UnexpectedResponseCode (R83). -/
theorem test_cfGeneric_received :
    (ran (.cfGeneric 0x11 0x22 0x33 0x44 0x55 0x66 0x9A)
      (received #v[0xFF, 0x01, 0x11, 0x22, 0x33, 0x44, 0x55, 0x66, 0x9A])).observed = [.rsp 3 0] := by decide

/-- V34 as a received frame. -/
theorem test_rfCo2Reading_ok :
    (after (received #v[0xFF, 0x85, 0x12, 0x34, 0x01, 0x90, 0x56, 0x78, 0xD6])).observed = [.rsp 0 400]
    ∧ (after (received #v[0xFF, 0x85, 0x12, 0x34, 0x01, 0x90, 0x56, 0x78, 0xD6])).avg = 400 := by decide

/-- V60: a corrupted last byte. -/
theorem test_rfCo2Reading_corrupted :
    (after (received corrupted400)).co2Err = 1 ∧ (after (received corrupted400)).window = [] := by decide

/-- Cycle 20 and edge 21 of the trace of V50; V63: a success leaves the counters. -/
theorem test_stOk :
    (received reading400).outputs.rspStatus = 0 ∧ (received reading400).outputs.rspConc = 400
    ∧ (ran .stOk { received reading400 with co2Err := 7, humErr := 2 }).window = [400]
    ∧ (ran .stOk { received reading400 with co2Err := 7, humErr := 2 }).co2Err = 7 := by decide

/-- V55: a timeout at `rx_cnt` = 3 in a cycle that also offers a byte, which is not taken. -/
theorem test_stIncompleteResponse :
    let s := { receiving 3 zeros { Inputs.quiet with rxTimeout := true, rxOffer := true } with linkIn := [0xFF] }
    (after s).observed = [.rsp 1 0] ∧ (after s).co2Err = 1 ∧ (after s).linkIn = [0xFF] := by decide

/-- V61 and V62. -/
theorem test_stIncompleteResponse_saturates :
    let s := receiving 0 zeros Script.timeout
    (ran .stIncompleteResponse { s with co2Err := 4294967295 }).co2Err = 4294967295
    ∧ (ran .stIncompleteResponse { s with co2Err := 4294967294 }).co2Err = 4294967295 := by decide

/-- V26. -/
theorem test_stBadStartByte : (ran .stBadStartByte (received zeros)).observed = [.rsp 2 0] := by decide

/-- V29, run as the frame's row and as the status' row. -/
theorem test_stUnexpectedResponseCode :
    (ran .stUnexpectedResponseCode (received echoedRead)).observed = [.rsp 3 0]
    ∧ (after (received echoedRead)).observed = [.rsp 3 0] := by decide

/-- V31. -/
theorem test_stChecksumMismatch : (ran .stChecksumMismatch (received corrupted400)).observed = [.rsp 4 0] := by decide

/-! ### A word placed for the next step is what the next step runs -/

theorem test_placed_pollCo2 : (after (State.reset.withFetchWord 8 1)).fsm = .discard := by decide
theorem test_placed_frameRead :
    (after (State.reset.withFetchWord 72 0xFF0186000000000079)).observed = [.sent 0xFF] := by decide
theorem test_placed_rfCo2Reading :
    (after (State.reset.withFetchWord 72 0xFF85000001900000EA)).observed = [.rsp 0 400] := by decide

/-! ### Witnesses: states and operands that meet all hypotheses of a statement -/

theorem witness_ChecksumIgnoresByteOrder :
    [(0x85 : Byte), 0, 0, 0x01, 0x90, 0, 0].Perm [0, 0, 0x01, 0x90, 0x85, 0, 0] := by decide

/-- The first and the last covered byte. -/
theorem witness_SingleByteCorruptionIsDetected :
    chkOk reading400 = true ∧ (1 ≤ (1 : Fin 9).val ∧ (0x84 : Byte) ≠ reading400[(1 : Fin 9)])
    ∧ (1 ≤ (8 : Fin 9).val ∧ (0xEB : Byte) ≠ reading400[(8 : Fin 9)]) := by decide

theorem witness_MiddleBytesAreNotInterpreted :
    let g : Frame := #v[0xFF, 0x85, 0x12, 0x34, 0x01, 0x90, 0x56, 0x78, 0xD6]
    (0xD6 : Byte) = chk 0x85 0x12 0x34 0x01 0x90 0x56 0x78 ∧ (0xEB : Byte) ≠ chk 0x85 0 0 0x01 0x90 0 0
    ∧ reading400[0] = g[0] ∧ reading400[1] = g[1] ∧ reading400[4] = g[4] ∧ reading400[5] = g[5]
    ∧ chkOk reading400 = chkOk g := by decide

theorem witness_StatusCodesDistinguishOutcomes :
    (Reading.ok 400).status = 0 ∧ Reading.badStartByte.status ≠ 0 := by decide

theorem witness_AverageIsTheTruncatedMean :
    (State.reset.toRegs.push 2).sum.toNat = windowSum (State.reset.toRegs.push 2).window
    ∧ (State.reset.toRegs.push 2).window ≠ []
    ∧ (∀ w ∈ (State.reset.toRegs.push 2).window, w.toNat ≤ 2)
    ∧ State.reset.toRegs.window = [] := by
  refine ⟨by decide, by decide, fun w h => ?_, by decide⟩
  rw [show (State.reset.toRegs.push 2).window = [2] by decide] at h
  simp only [List.mem_cons, List.not_mem_nil, or_false] at h
  rw [h]
  decide

theorem witness_DecodeOfEncodeIsTheInstruction :
    (Instr.cfGeneric 0x85 0 0 0 0 0 0x7A).wellFormed = true
    ∧ (Instr.rfCo2Reading 0 0 1 0x90 0 0 0xEB).wellFormed = true ∧ Instr.stOk.wellFormed = true := by decide

theorem witness_DecodedBytesAreTheEncoding :
    decode .link (frameBytes reading400) = .ok (.rfCo2Reading 0 0 1 0x90 0 0 0xEA) := by rfl

theorem witness_DecoderRefusesExactlyTheRest :
    (zeros[0] ≠ 0xFF)
    ∧ (let f : Frame := #v[0xFF, 0x79, 0x01, 0, 0, 0, 0, 0, 0x86]; f[0] = 0xFF ∧ f[1] ≠ 0x01 ∧ f[1] ≠ 0x85)
    ∧ (reading400[0] = 0xFF ∧ reading400[1] = 0x85) ∧ (echoedRead[0] = 0xFF ∧ echoedRead[1] = 0x01)
    ∧ ([0xFF] : List Byte).length ≠ 9
    ∧ ([] : List Byte).length ≠ 1 ∧ ([0, 0] : List Byte).length ≠ 1
    ∧ (7 : Byte).toNat < 8 ∧ 8 ≤ (8 : Byte).toNat ∧ (4 : Byte).toNat < 5 ∧ 5 ≤ (5 : Byte).toNat := by decide

/-- A reset edge in the middle of an exchange. -/
theorem witness_ResetEdgeOverridesEverything :
    (receiving 9 reading400 { Inputs.quiet with rst := true }).pins.rst = true
    ∧ (after (receiving 9 reading400 { Inputs.quiet with rst := true })).pins.rst = false := by decide

/-- Every clause of the invariant that has a hypothesis, in a receiving block with a full window. -/
theorem witness_EveryStepKeepsTheInvariant :
    let s : State := { received reading400 with
      win := #v[100, 200, 300, 400, 500, 600], head := 0, count := 6, sum := 2100, avg := 350 }
    Inv s ∧ step s = .next (after s) :=
  ⟨⟨by decide, by decide, by decide, by decide, by decide, by decide, by decide, by decide, by decide⟩, rfl⟩

/-- The invariant while sending, after the discard. -/
theorem witness_EveryStepKeepsTheInvariant_send :
    Inv (sending .read 9) ∧ Inv { State.reset with fsm := .discard } :=
  ⟨⟨by decide, by decide, by decide, by decide, by decide, by decide, by decide, by decide, by decide⟩,
   ⟨by decide, by decide, by decide, by decide, by decide, by decide, by decide, by decide, by decide⟩⟩

theorem witness_StepRunsTheDecodedInstruction_idle :
    (presenting 7).pins.rst = false ∧ (presenting 7).fsm = .idle ∧ (presenting 7).pins.cmdValid = true
    ∧ decode .command [(presenting 7).pins.cmdCode.setWidth 8] = .ok .reserved7 :=
  ⟨rfl, rfl, rfl, rfl⟩

theorem witness_StepRunsTheDecodedInstruction_send :
    (sending .range 0).pins.rst = false ∧ (sending .range 0).fsm = .send
    ∧ decode .link (frameBytes (frameOf Config.hw (sending .range 0).op)) = .ok .frameRange2000 :=
  ⟨rfl, rfl, rfl⟩

theorem witness_StepRunsTheDecodedInstruction_recv :
    (received reading400).pins.rst = false ∧ (received reading400).fsm = .recv ∧ (received reading400).rxCnt = 9
    ∧ decode .link (frameBytes (received reading400).rxBuf) = .ok (.rfCo2Reading 0 0 1 0x90 0 0 0xEA) :=
  ⟨rfl, rfl, rfl, rfl⟩

theorem witness_CompletionRunsTheStatusRow :
    (received echoedRead).pins.rst = false ∧ (received echoedRead).rspValid = true
    ∧ (receiving 0 zeros Script.timeout).pins.rst = false ∧ (receiving 0 zeros Script.timeout).rspValid = true := by
  decide

theorem witness_DiscardStepDropsStaleBytes :
    (let s := { withInput Inputs.quiet with fsm := .discard, linkIn := [0x12, 0x34] };
      s.fsm = .discard ∧ s.pins.rst = false)
    ∧ step (presenting 1) = .next (after (presenting 1)) ∧ (after (presenting 1)).fsm = .discard :=
  ⟨by decide, rfl, rfl⟩

/-- At the first and at the last index. -/
theorem witness_ReceiveStepStoresTheNextByte :
    ∀ k ∈ [(0 : BitVec 4), 8],
      let s := { receiving k zeros Script.deliver with linkIn := [0xFF] }
      s.fsm = .recv ∧ s.pins.rst = false ∧ s.rxCnt.toNat < 9 ∧ s.pins.rxTimeout = false ∧ s.pins.rxOffer = true
      ∧ s.linkIn = 0xFF :: [] := by decide

theorem witness_TimeoutWinsOverAnOfferedByte :
    ∀ k ∈ [(0 : BitVec 4), 8],
      let s := receiving k zeros { Inputs.quiet with rxTimeout := true, rxOffer := true }
      s.fsm = .recv ∧ s.pins.rst = false ∧ s.rxCnt.toNat < 9 ∧ s.pins.rxTimeout = true := by decide

/-- Each of the four waits. -/
theorem witness_WaitingChangesNoRegister :
    (let s := { sending .read 8 with inputs := [Inputs.quiet] };
      s.pins.rst = false ∧ s.fsm = .send ∧ s.txIdx.toNat < 9 ∧ s.pins.txReady = false)
    ∧ (let s := { flushing .read with linkOut := [0x79] };
      s.pins.rst = false ∧ s.fsm = .send ∧ s.txIdx = 9 ∧ s.txEmpty = false)
    ∧ (let s := receiving 8 zeros Script.deliver;
      s.pins.rst = false ∧ s.fsm = .recv ∧ s.rxCnt.toNat < 9 ∧ s.pins.rxTimeout = false ∧ s.rxValid = false)
    ∧ (let s := withInput Inputs.quiet;
      s.pins.rst = false ∧ s.fsm = .idle ∧ s.pins.cmdValid = false) := by decide

theorem witness_PollCo2StartsAnExchange : State.reset.fsm = .idle := rfl
theorem witness_SetCommandsStartSending : State.reset.fsm = .idle := rfl
theorem witness_ClearErrorsZeroesBothCounters : State.reset.fsm = .idle ∧ (received zeros).fsm ≠ .idle := by decide

theorem witness_HumFailCountsOne :
    (let s := { presenting 6 with humErr := 4294967294 }; s.fsm = .idle ∧ s.humErr.toNat < 2 ^ 32 - 1)
    ∧ (let s := { presenting 6 with humErr := 4294967295 }; s.fsm = .idle ∧ s.humErr.toNat = 2 ^ 32 - 1)
    ∧ (sending .read 0).fsm ≠ .idle := by decide

theorem witness_BusyBlockTakesNoCommand :
    Instr.clearErrors.port = .command ∧ (sending .read 0).fsm ≠ .idle := by decide

/-- The first and the last byte of each frame. -/
theorem witness_RomRowsHandOverTheirBytes :
    ∀ p ∈ [(Op.read, Instr.frameRead, (0x79 : Byte)), (Op.abcOff, Instr.frameAbcOff, 0x86),
        (Op.abcOn, Instr.frameAbcOn, 0xE6), (Op.range, Instr.frameRange2000, 0x8F)],
      (let s := sending p.1 0;
        s.fsm = .send ∧ s.op = p.1 ∧ (encode p.2.1)[s.txIdx.toNat]? = some 0xFF ∧ s.pins.txReady = true)
      ∧ (let s := sending p.1 8;
        s.fsm = .send ∧ s.op = p.1 ∧ (encode p.2.1)[s.txIdx.toNat]? = some p.2.2 ∧ s.pins.txReady = true) := by
  decide

theorem witness_RomRowsEndWithTheFlush :
    ∀ o ∈ [Op.read, Op.abcOff, Op.abcOn, Op.range],
      (flushing o).fsm = .send ∧ (flushing o).txIdx = 9 ∧ (flushing o).pins.txReport = true
      ∧ (flushing o).linkOut = [] ∧ (flushing o).op = o := by decide

theorem witness_ReceivedCommandFramesAreUnexpected :
    (received echoedRead).fsm = .recv ∧ (received echoedRead).rxCnt = 9
    ∧ frameBytes (received echoedRead).rxBuf = encode .frameRead
    ∧ frameBytes (received (frameOf Config.hw .abcOff)).rxBuf = encode .frameAbcOff
    ∧ frameBytes (received (frameOf Config.hw .abcOn)).rxBuf = encode .frameAbcOn
    ∧ frameBytes (received (frameOf Config.hw .range)).rxBuf = encode .frameRange2000
    ∧ frameBytes (received #v[0xFF, 0x01, 0x85, 0, 0, 0, 0, 0, 0x7A]).rxBuf
        = encode (.cfGeneric 0x85 0 0 0 0 0 0x7A) := by decide

theorem witness_ReceivedReadingIsCommitted :
    (received reading400).fsm = .recv ∧ (received reading400).rxCnt = 9
    ∧ frameBytes (received reading400).rxBuf = [0xFF, 0x85, 0, 0, 1, 0x90, 0, 0, 0xEA]
    ∧ (0xEA : Byte) = chk 0x85 0 0 1 0x90 0 0
    ∧ frameBytes (received corrupted400).rxBuf = [0xFF, 0x85, 0, 0, 1, 0x90, 0, 0, 0xEB]
    ∧ (0xEB : Byte) ≠ chk 0x85 0 0 1 0x90 0 0 := by decide

/-- Each place that is not a row's place. -/
theorem witness_RowsElsewhereChangeNothing :
    Instr.frameRead.port = .link ∧ State.reset.fsm = .idle
    ∧ (sending .range 0).fsm = .send ∧ frameBytes (frameOf Config.hw (sending .range 0).op) ≠ encode .frameRead
    ∧ (receiving 8 echoedRead Inputs.quiet).rxCnt ≠ 9
    ∧ (received reading400).fsm = .recv ∧ frameBytes (received reading400).rxBuf ≠ encode .frameRead
    ∧ Instr.stOk.port = .outcome ∧ (presenting 0).rspValid = false
    ∧ (received corrupted400).rspValid = true ∧ (received corrupted400).outcome.row ≠ .stOk := by decide

/-- The four error kinds, the incomplete one at no byte and at eight. -/
theorem witness_ErrorStatusesCountOneFailure :
    (∀ k ∈ [(0 : BitVec 4), 8], let s := receiving k reading400 Script.timeout;
      s.fsm = .recv ∧ s.rxCnt.toNat < 9 ∧ s.pins.rxTimeout = true)
    ∧ (let s := received zeros; s.fsm = .recv ∧ s.rxCnt = 9 ∧ s.rxBuf[0] ≠ 0xFF)
    ∧ (let s := received echoedRead; s.fsm = .recv ∧ s.rxCnt = 9 ∧ s.rxBuf[0] = 0xFF ∧ s.rxBuf[1] ≠ 0x85)
    ∧ (let s := received corrupted400;
      s.fsm = .recv ∧ s.rxCnt = 9 ∧ s.rxBuf[0] = 0xFF ∧ s.rxBuf[1] = 0x85 ∧ chkOk s.rxBuf = false) := by decide

theorem witness_OkStatusPushesAndAverages :
    (received reading400).fsm = .recv ∧ (received reading400).rxCnt = 9
    ∧ validate Config.hw 9 (received reading400).rxBuf = .ok 400 := by decide

theorem witness_CountersSaturate :
    (4294967294 : Counter).toNat < 2 ^ 32 - 1 ∧ (4294967295 : Counter).toNat = 2 ^ 32 - 1 := by decide

/-- A reset and each transition of R100. -/
theorem witness_FsmTakesOnlyItsTransitions :
    (receiving 9 reading400 { Inputs.quiet with rst := true }).pins.rst = true
    ∧ (presenting 1).pins.rst = false ∧ (presenting 1).fsm = .idle ∧ (after (presenting 1)).fsm = .discard
    ∧ (presenting 4).fsm = .idle ∧ (after (presenting 4)).fsm = .send
    ∧ (flushing .read).fsm = .send ∧ (after (flushing .read)).fsm = .recv
    ∧ (flushing .abcOn).fsm = .send ∧ (after (flushing .abcOn)).fsm = .idle
    ∧ (received zeros).fsm = .recv ∧ (after (received zeros)).fsm = .idle := by decide

theorem witness_OpChangesOnlyOnAcceptance :
    (presenting 4).pins.rst = false ∧ step (presenting 4) = .next (after (presenting 4))
    ∧ (after (presenting 4)).op ≠ (presenting 4).op := ⟨rfl, rfl, by decide⟩

theorem witness_ReceiveBufferIsWrittenOnlyByReceiving :
    let s := { receiving 0 zeros Script.deliver with linkIn := [0xFF] }
    s.pins.rst = false ∧ step s = .next (after s) ∧ (after s).rxBuf ≠ s.rxBuf := ⟨rfl, rfl, by decide⟩

/-- A step that pushes. -/
theorem witness_FilterChangesOnlyByAnOkPoll :
    (received reading400).pins.rst = false ∧ step (received reading400) = .next (after (received reading400))
    ∧ (after (received reading400)).avg ≠ (received reading400).avg := ⟨rfl, rfl, by decide⟩

/-- A failed poll and a clearing. -/
theorem witness_Co2ErrCountsFailedPolls :
    step (received zeros) = .next (after (received zeros))
    ∧ (received zeros).rspValid = true ∧ (received zeros).outcome.status ≠ 0
    ∧ step (presenting 5) = .next (after (presenting 5)) ∧ (presenting 5).rspValid = false
    ∧ (presenting 5).fsm = .idle ∧ (presenting 5).pins.cmdValid = true ∧ (presenting 5).pins.cmdCode = 5 :=
  ⟨rfl, by decide, by decide, rfl, by decide, rfl, rfl, rfl⟩

theorem witness_HumErrCountsHumFail :
    step (presenting 6) = .next (after (presenting 6)) ∧ (presenting 6).pins.rst = false
    ∧ (presenting 6).fsm = .idle ∧ (presenting 6).pins.cmdValid = true ∧ (presenting 6).pins.cmdCode = 6 :=
  ⟨rfl, rfl, rfl, rfl, rfl⟩

/-- In the middle of an exchange. -/
theorem witness_StatusOutputsHoldBetweenCommits :
    (sending .read 4).pins.rst = false ∧ step (sending .read 4) = .next (after (sending .read 4))
    ∧ (sending .read 4).rspValid = false
    ∧ ¬ ((sending .read 4).fsm = .idle ∧ (sending .read 4).pins.cmdValid = true
      ∧ ((sending .read 4).pins.cmdCode = 5 ∨ (sending .read 4).pins.cmdCode = 6)) := ⟨rfl, rfl, by decide, by decide⟩

/-- Both clauses: with an outcome and without. -/
theorem witness_OneOutcomeEventPerPoll :
    step (received zeros) = .next (after (received zeros)) ∧ (received zeros).rspValid = true
    ∧ step (flushing .read) = .next (after (flushing .read)) ∧ (flushing .read).rspValid = false :=
  ⟨rfl, by decide, rfl, by decide⟩

theorem witness_LinkBuffersKeepOrder :
    step (sending .read 0) = .next (after (sending .read 0)) ∧ (after (sending .read 0)).linkOut = [0xFF] :=
  ⟨rfl, by decide⟩

/-- Two states that differ in their records only. -/
theorem witness_OnlyRegistersAndPortsMatter :
    let s := received reading400
    let s' := { received reading400 with observed := [.flushed], cycle := 5 }
    s.toRegs = s'.toRegs ∧ s.linkIn = s'.linkIn ∧ s.linkOut = s'.linkOut ∧ s.pins = s'.pins ∧ s.pins.rst = false
    ∧ step s = .next (after s) ∧ step s' = .next (after s') := ⟨rfl, rfl, rfl, rfl, rfl, rfl, rfl⟩

/-- The hypotheses inside OutputsFollowTheStateTable: a byte on offer, an outcome, and none. -/
theorem witness_OutputsFollowTheStateTable :
    (sending .read 8).txIdx.toNat < 9 ∧ (sending .read 8).fsm = .send
    ∧ (received zeros).outputs.rspValid = true ∧ (sending .read 8).outputs.rspValid = false := by decide

/-- The last step of a poll, with the events of the exchange so far on record, and an acceptance. -/
theorem witness_ExchangeCallsStayInOrder :
    (let s := { received reading400 with observed := [] ++ (received reading400).exchangeSoFar };
      s.pins.rst = false ∧ s.fsm ≠ .idle ∧ s.observed = [] ++ s.exchangeSoFar ∧ step s = .next (after s)
      ∧ Inv s ∧ (after s).fsm = .idle)
    ∧ (presenting 1).pins.rst = false ∧ (presenting 1).fsm = .idle
      ∧ step (presenting 1) = .next (after (presenting 1)) :=
  ⟨⟨rfl, by decide, rfl, rfl,
    ⟨by decide, by decide, by decide, by decide, by decide, by decide, by decide, by decide, by decide⟩, by decide⟩,
   rfl, rfl, rfl⟩

/-- A whole answer and an empty one. -/
theorem witness_PollRunReachesItsSummary :
    State.reset.fsm = .idle ∧ (frameBytes reading400).length ≤ 9 ∧ ([] : List Byte).length ≤ 9 := by decide

theorem witness_SetRunReachesItsSummary :
    State.reset.fsm = .idle
    ∧ ((4 : BitVec 3), Op.range) ∈ [((2 : BitVec 3), Op.abcOff), (3, Op.abcOn), (4, Op.range)] := by decide

end Sys2Proof.Tests
end

section
/-!
SUPPORT. One clock edge as a relation: what the registers and the transport's buffers become before `endCycle`, one
constructor per transition of the state table (spec/43_request_response_fsm.md R115), each with its guard.
-/

namespace Sys2Proof.Machine

/-! ### The send step, one equation per guard -/

theorem State.sendStep_byte (s : State) (h : s.txIdx.toNat < 9) (ready : s.pins.txReady = true) :
    s.sendStep = { s with
      linkOut := s.linkOut ++ [(frameOf Config.hw s.op)[s.txIdx.toNat]], txIdx := s.txIdx + 1
      observed := s.observed ++ [.sent (frameOf Config.hw s.op)[s.txIdx.toNat]] } := by
  simp only [State.sendStep, h, dif_pos, State.sendByteStep, ready, if_pos, State.observe]

theorem State.sendStep_flush (s : State) (h : s.txIdx = 9) (empty : s.txEmpty = true) :
    s.sendStep = { s with
      fsm := if s.op = .read then .recv else .idle, observed := s.observed ++ [.flushed] } := by
  simp [State.sendStep, h, State.flushStep, empty, State.observe]

theorem State.sendStep_wait (s : State) (noByte : ¬ (s.txIdx.toNat < 9 ∧ s.pins.txReady = true))
    (noFlush : ¬ (s.txIdx = 9 ∧ s.txEmpty = true)) : s.sendStep = s := by
  obtain h | ⟨h, ready, -⟩ | ⟨h, empty, -⟩ := s.sendStep_cases
  · exact h
  · exact absurd ⟨h, ready⟩ noByte
  · exact absurd ⟨h, empty⟩ noFlush

/-! ### The relation -/

/-- `Edge s u`: the coming clock edge takes `s` to `u`, the end of the cycle (`State.endCycle`) not yet counted. -/
inductive Edge (s : State) : State → Prop
  /-- `rst` = 1 overrides every row (R115, R160). -/
  | reset (rst : s.pins.rst = true) : Edge s s.resetEdge
  /-- IDLE with no command, or one that does nothing (R134, R137). -/
  | idle (run : s.pins.rst = false) (fsm : s.fsm = .idle)
      (code : s.pins.cmdValid = true → s.pins.cmdCode = 0 ∨ s.pins.cmdCode = 7) : Edge s s
  /-- POLL_CO2 accepted (R101, R102). -/
  | poll (run : s.pins.rst = false) (fsm : s.fsm = .idle) (valid : s.pins.cmdValid = true)
      (code : s.pins.cmdCode = 1) : Edge s { s with op := .read, txIdx := 0, fsm := .discard }
  /-- A SET command accepted (R101, R108 to R110). -/
  | set (o : Op) (run : s.pins.rst = false) (fsm : s.fsm = .idle) (valid : s.pins.cmdValid = true)
      (code : s.pins.cmdCode = 2 ∧ o = .abcOff ∨ s.pins.cmdCode = 3 ∧ o = .abcOn ∨ s.pins.cmdCode = 4 ∧ o = .range) :
      Edge s { s with op := o, txIdx := 0, fsm := .send }
  /-- CLEAR_ERRORS accepted (R132). -/
  | clearErrors (run : s.pins.rst = false) (fsm : s.fsm = .idle) (valid : s.pins.cmdValid = true)
      (code : s.pins.cmdCode = 5) : Edge s { s with co2Err := 0, humErr := 0 }
  /-- HUM_FAIL accepted (R133). -/
  | humFail (run : s.pins.rst = false) (fsm : s.fsm = .idle) (valid : s.pins.cmdValid = true)
      (code : s.pins.cmdCode = 6) : Edge s { s with humErr := satInc s.humErr }
  /-- The DISCARD step (R103). -/
  | discard (run : s.pins.rst = false) (fsm : s.fsm = .discard) : Edge s s.discardStep
  /-- SEND waits for the transport (R154). -/
  | sendWait (run : s.pins.rst = false) (fsm : s.fsm = .send)
      (noByte : ¬ (s.txIdx.toNat < 9 ∧ s.pins.txReady = true)) (noFlush : ¬ (s.txIdx = 9 ∧ s.txEmpty = true)) :
      Edge s s
  /-- The SEND byte step (R104). -/
  | sendByte (run : s.pins.rst = false) (fsm : s.fsm = .send) (more : s.txIdx.toNat < 9)
      (ready : s.pins.txReady = true) :
      Edge s { s with
        linkOut := s.linkOut ++ [(frameOf Config.hw s.op)[s.txIdx.toNat]], txIdx := s.txIdx + 1
        observed := s.observed ++ [.sent (frameOf Config.hw s.op)[s.txIdx.toNat]] }
  /-- The FLUSH step (R105). -/
  | flush (run : s.pins.rst = false) (fsm : s.fsm = .send) (whole : s.txIdx = 9) (empty : s.txEmpty = true) :
      Edge s { s with fsm := if s.op = .read then .recv else .idle, observed := s.observed ++ [.flushed] }
  /-- RECV waits for a byte or the timeout (R154). -/
  | receiveWait (run : s.pins.rst = false) (fsm : s.fsm = .recv) (notLast : s.rspValid = false)
      (noByte : ¬ (s.rxReady = true ∧ s.rxValid = true)) : Edge s s
  /-- The RECV byte step (R106). -/
  | receiveByte (b : Byte) (rest : List Byte) (run : s.pins.rst = false) (fsm : s.fsm = .recv)
      (notLast : s.rspValid = false) (more : s.rxCnt.toNat < 9) (ready : s.rxReady = true) (valid : s.rxValid = true)
      (oldest : s.linkIn = b :: rest) :
      Edge s { s with
        linkIn := rest, rxBuf := s.rxBuf.set s.rxCnt.toNat b more, rxCnt := s.rxCnt + 1
        observed := s.observed ++ [.received b] }
  /-- The completion of a poll whose outcome is Ok (R107, R130). -/
  | commitOk (c : Conc) (run : s.pins.rst = false) (last : s.rspValid = true) (ok : s.outcome = .ok c) :
      Edge s (s.commitOk c)
  /-- The completion of a poll that ends in an error kind (R107, R131). -/
  | commitError (run : s.pins.rst = false) (last : s.rspValid = true) (failed : s.outcome.status ≠ 0) :
      Edge s (s.commitError s.outcome.status)

theorem State.rspValid_iff (s : State) :
    s.rspValid = true ↔ s.fsm = .recv ∧ (s.rxCnt = 9 ∨ s.pins.rxTimeout = true) := by
  simp [State.rspValid]

theorem State.fsm_of_rspValid {s : State} (h : s.rspValid = true) : s.fsm = .recv :=
  (s.rspValid_iff.mp h).1

theorem State.rspValid_of_fsm_ne {s : State} (h : s.fsm ≠ .recv) : s.rspValid = false := by
  simp [State.rspValid, h]

/-- The eight command codes (spec/30_encoding.md R53). -/
theorem commandCode_cases (c : BitVec 3) :
    c = 0 ∨ c = 1 ∨ c = 2 ∨ c = 3 ∨ c = 4 ∨ c = 5 ∨ c = 6 ∨ c = 7 := by
  decide +revert

/-- The step takes every edge of the relation. -/
theorem Edge.step_eq {s u : State} (e : Edge s u) : step s = .next u.endCycle := by
  cases e with
  | reset rst => exact step_reset s rst
  | idle run fsm code =>
    cases v : s.pins.cmdValid with
    | false => exact step_idle s run fsm v
    | true =>
      rw [step_command s run fsm v]
      obtain c | c := code v <;> rw [c] <;> rfl
  | poll run fsm valid code =>
    rw [step_command s run fsm valid, code, ← s.acceptSend_idle _ _ fsm]
    rfl
  | set o run fsm valid code =>
    rw [step_command s run fsm valid, ← s.acceptSend_idle _ _ fsm]
    obtain ⟨c, rfl⟩ | ⟨c, rfl⟩ | ⟨c, rfl⟩ := code <;> rw [c] <;> rfl
  | clearErrors run fsm valid code =>
    rw [step_command s run fsm valid, code, show decodeCommand 5 = .clearErrors from rfl]
    simp only [exec, execClearErrors, fsm, if_pos, thenEndCycle]
  | humFail run fsm valid code =>
    rw [step_command s run fsm valid, code, show decodeCommand 6 = .humFail from rfl]
    simp only [exec, execHumFail, fsm, if_pos, thenEndCycle]
  | discard run fsm => exact step_discard s run fsm
  | sendWait run fsm noByte noFlush => rw [step_send s run fsm, s.sendStep_wait noByte noFlush]
  | sendByte run fsm more ready => rw [step_send s run fsm, s.sendStep_byte more ready]
  | flush run fsm whole empty => rw [step_send s run fsm, s.sendStep_flush whole empty]
  | receiveWait run fsm notLast noByte =>
    obtain ⟨h, -⟩ | ⟨-, -, -, ready, valid, -⟩ := s.recvByteStep_cases
    · rw [step_receive s run fsm notLast, h]
    · exact absurd ⟨ready, valid⟩ noByte
  | receiveByte b rest run fsm notLast more ready valid oldest =>
    obtain ⟨-, h⟩ | ⟨_, b', rest', -, -, oldest', h⟩ := s.recvByteStep_cases
    · exact absurd ⟨ready, valid⟩ h
    · obtain ⟨rfl, rfl⟩ := List.cons.inj (oldest'.symm.trans oldest)
      rw [step_receive s run fsm notLast, h]
  | commitOk c run last ok =>
    rw [step_complete s run last, State.complete, ok]
    rfl
  | commitError run last failed =>
    obtain ⟨c, ok, -⟩ | ⟨-, -, h⟩ := s.complete_cases
    · exact absurd (by rw [ok]; rfl) failed
    · rw [step_complete s run last, h]

/-- Every state has an edge: the guards leave no case out. -/
theorem exists_edge (s : State) : ∃ u, Edge s u := by
  cases run : s.pins.rst with
  | true => exact ⟨_, .reset run⟩
  | false =>
    cases fsm : s.fsm with
    | idle =>
      cases valid : s.pins.cmdValid with
      | false => exact ⟨_, .idle run fsm (by simp [valid])⟩
      | true =>
        obtain c | c | c | c | c | c | c | c := commandCode_cases s.pins.cmdCode
        · exact ⟨_, .idle run fsm fun _ => .inl c⟩
        · exact ⟨_, .poll run fsm valid c⟩
        · exact ⟨_, .set .abcOff run fsm valid (.inl ⟨c, rfl⟩)⟩
        · exact ⟨_, .set .abcOn run fsm valid (.inr (.inl ⟨c, rfl⟩))⟩
        · exact ⟨_, .set .range run fsm valid (.inr (.inr ⟨c, rfl⟩))⟩
        · exact ⟨_, .clearErrors run fsm valid c⟩
        · exact ⟨_, .humFail run fsm valid c⟩
        · exact ⟨_, .idle run fsm fun _ => .inr c⟩
    | discard => exact ⟨_, .discard run fsm⟩
    | send =>
      by_cases byte : s.txIdx.toNat < 9 ∧ s.pins.txReady = true
      · exact ⟨_, .sendByte run fsm byte.1 byte.2⟩
      · by_cases flush : s.txIdx = 9 ∧ s.txEmpty = true
        · exact ⟨_, .flush run fsm flush.1 flush.2⟩
        · exact ⟨_, .sendWait run fsm byte flush⟩
    | recv =>
      cases last : s.rspValid with
      | true =>
        obtain ⟨c, ok, -⟩ | ⟨failed, -, -⟩ := s.complete_cases
        · exact ⟨_, .commitOk c run last ok⟩
        · exact ⟨_, .commitError run last failed⟩
      | false =>
        obtain ⟨-, noByte⟩ | ⟨more, b, rest, ready, valid, oldest, -⟩ := s.recvByteStep_cases
        · exact ⟨_, .receiveWait run fsm last noByte⟩
        · exact ⟨_, .receiveByte b rest run fsm last more ready valid oldest⟩

/-- What a step can do: an edge of the relation, then the end of the cycle. -/
theorem step_eq_next_iff (s t : State) : step s = .next t ↔ ∃ u, Edge s u ∧ t = u.endCycle := by
  constructor
  · intro h
    obtain ⟨u, e⟩ := exists_edge s
    exact ⟨u, e, Host.Outcome.next.inj (h.symm.trans e.step_eq)⟩
  · rintro ⟨u, e, rfl⟩
    exact e.step_eq

end Sys2Proof.Machine
end

section
/-!
SUPPORT. PUSH on the ring buffer is PUSH on the window (spec/42_moving_average.md R91, R93), `sum` stays the window's
sum within its 19 bits, and AVERAGE is the truncated mean within its 16 bits (R92, R94).
-/

namespace Sys2Proof.Machine

/-! ### The window -/

/-- The window's value at distance `j` from the oldest (R20). -/
def Regs.slot (r : Regs) (j : Nat) : Conc :=
  r.win[(r.head.val + j) % 6]'(Nat.mod_lt _ (by decide))

theorem Regs.window_eq_map_slot (r : Regs) : r.window = (List.range r.count.val).map r.slot := rfl

/-- A full window is its oldest value and the five after it. -/
theorem Regs.window_full (r : Regs) (full : r.count = 6) :
    r.window = r.win[r.head] :: (List.range 5).map fun j => r.slot (j + 1) := by
  have oldest : r.slot 0 = r.win[r.head] := by simp [Regs.slot, Nat.mod_eq_of_lt r.head.isLt]
  rw [Regs.window_eq_map_slot, full, ← oldest]
  rfl

/-- Into a full window: the values move one place towards the oldest. -/
theorem Regs.slot_push_full (r : Regs) (v : Conc) (full : r.count = 6) (j : Nat) (h : j < 5) :
    (r.push v).slot j = r.slot (j + 1) := by
  have := r.head.isLt
  have other : r.head.val ≠ (r.head.val + (j + 1)) % 6 := by omega
  have place : ((r.head.val + 1) % 6 + j) % 6 = (r.head.val + (j + 1)) % 6 := by omega
  simp [Regs.push_full r v full, Regs.slot, place, other]

/-- Into a full window: the new value is the youngest. -/
theorem Regs.slot_push_full_last (r : Regs) (v : Conc) (full : r.count = 6) : (r.push v).slot 5 = v := by
  have := r.head.isLt
  have youngest : r.head.val = ((r.head.val + 1) % 6 + 5) % 6 := by omega
  simp [Regs.push_full r v full, Regs.slot, ← youngest]

/-- Into a window that is not full: the values stay. -/
theorem Regs.slot_push_notFull (r : Regs) (v : Conc) (notFull : r.count ≠ 6) (j : Nat) (h : j < r.count.val) :
    (r.push v).slot j = r.slot j := by
  have := r.count.isLt
  have : r.count.val ≠ 6 := fun e => notFull (Fin.ext e)
  have other : (r.head.val + r.count.val) % 6 ≠ (r.head.val + j) % 6 := by omega
  simp [Regs.push_notFull r v notFull, Regs.slot, other]

/-- Into a window that is not full: the new value comes after the youngest. -/
theorem Regs.slot_push_notFull_last (r : Regs) (v : Conc) (notFull : r.count ≠ 6) :
    (r.push v).slot r.count.val = v := by
  simp [Regs.push_notFull r v notFull, Regs.slot]

/-- PUSH on the registers is PUSH on the window, in every state. -/
theorem Regs.push_window (r : Regs) (v : Conc) : (r.push v).window = pushWindow 6 r.window v := by
  have lt := r.count.isLt
  have count := r.push_count v
  rw [pushWindow, Regs.window_length, Regs.window_eq_map_slot (r.push v)]
  by_cases full : r.count = 6
  · have six : r.count.val = 6 := by rw [full]; rfl
    rw [if_pos six, Regs.window_full r full, List.tail_cons, count, six, show min (6 + 1) 6 = 5 + 1 from rfl,
      List.range_succ, List.map_append, List.map_singleton, r.slot_push_full_last v full]
    congr 1
    exact List.map_congr_left fun j h => r.slot_push_full v full j (List.mem_range.mp h)
  · have six : r.count.val ≠ 6 := fun e => full (Fin.ext e)
    rw [if_neg six, Regs.window_eq_map_slot r, count, show min (r.count.val + 1) 6 = r.count.val + 1 by omega,
      List.range_succ, List.map_append, List.map_singleton, r.slot_push_notFull_last v full]
    congr 1
    exact List.map_congr_left fun j h => r.slot_push_notFull v full j (List.mem_range.mp h)

/-! ### The sum -/

theorem windowSum_append (w w' : List Conc) : windowSum (w ++ w') = windowSum w + windowSum w' := by
  simp [windowSum]

theorem windowSum_cons (v : Conc) (w : List Conc) : windowSum (v :: w) = v.toNat + windowSum w := by
  simp [windowSum]

@[simp] theorem windowSum_singleton (v : Conc) : windowSum [v] = v.toNat := by
  simp [windowSum]

/-- Each value is a 16-bit number, so the sum is at most 65535 for each value. -/
theorem windowSum_le (w : List Conc) : windowSum w ≤ 65535 * w.length := by
  induction w with
  | nil => exact Nat.le_refl 0
  | cons v w ih =>
    have := v.isLt
    rw [windowSum_cons, List.length_cons]
    omega

theorem Regs.windowSum_window_le (r : Regs) : windowSum r.window ≤ 65535 * r.count.val :=
  r.window_length ▸ windowSum_le r.window

@[simp] theorem zext19_toNat (v : Conc) : (zext19 v).toNat = v.toNat := by
  have := v.isLt
  simp [zext19]
  omega

/-- A full window's sum is its oldest value and the rest. -/
theorem Regs.windowSum_full (r : Regs) (full : r.count = 6) :
    windowSum r.window = r.win[r.head].toNat + windowSum r.window.tail := by
  rw [Regs.window_full r full, windowSum_cons, List.tail_cons]

/-- PUSH keeps `sum` the window's sum: the 19-bit adder never overflows. -/
theorem Regs.push_sum_toNat (r : Regs) (v : Conc) (exact : r.sum.toNat = windowSum r.window) :
    (r.push v).sum.toNat = windowSum (r.push v).window := by
  have bound := (r.push v).windowSum_window_le
  have six := (r.push v).count.isLt
  rw [Regs.push_window] at bound ⊢
  by_cases full : r.count = 6
  · have h6 : r.window.length = 6 := by rw [Regs.window_length, full]; rfl
    have split := r.windowSum_full full
    simp only [pushWindow, h6, if_pos, windowSum_append, windowSum_singleton] at bound ⊢
    simp only [Regs.push_full r v full, BitVec.toNat_add, BitVec.toNat_sub, zext19_toNat]
    omega
  · have h6 : r.window.length ≠ 6 := by rw [Regs.window_length]; exact fun e => full (Fin.ext e)
    simp only [pushWindow, h6, if_false, windowSum_append, windowSum_singleton] at bound ⊢
    simp only [Regs.push_notFull r v full, BitVec.toNat_add, zext19_toNat]
    omega

/-! ### The average -/

/-- AVERAGE of a window with a value is the truncated mean: it fits in 16 bits. -/
theorem Regs.average_toNat (r : Regs) (exact : r.sum.toNat = windowSum r.window) (some : r.count ≠ 0) :
    r.average.toNat = r.sum.toNat / r.count.val := by
  have bound := r.windowSum_window_le
  have fits : r.sum.toNat / r.count.val < 2 ^ 16 :=
    Nat.lt_of_le_of_lt (Nat.div_le_of_le_mul (by rw [exact, Nat.mul_comm]; exact bound)) (by decide)
  rw [Regs.average, if_neg some, BitVec.toNat_ofNat, Nat.mod_eq_of_lt fits]

theorem Regs.push_count_ne_zero (r : Regs) (v : Conc) : (r.push v).count ≠ 0 := by
  intro h
  have := r.push_count v
  rw [h, Fin.val_zero] at this
  omega

end Sys2Proof.Machine
end

section
/-!
SUPPORT. The invariant of spec/10_state.md R21 in two halves, both of the registers alone: the filter's half, which only
PUSH and a reset touch, and the exchange's half, one introduction rule per FSM state.
-/

namespace Sys2Proof.Machine

/-! ### The filter's half -/

/-- The clauses of `Inv` on the window, its sum and the average. -/
structure FilterSound (r : Regs) : Prop where
  headZero : r.count.val < 6 → r.head = 0
  sumExact : r.sum.toNat = windowSum r.window
  avgMean : r.count ≠ 0 → r.avg.toNat = r.sum.toNat / r.count.val
  avgZero : r.count = 0 → r.avg = 0

/-- The five registers of the filter. -/
def Regs.filterPart (r : Regs) : Vector Conc 6 × Fin 6 × Fin 7 × SumWord × Conc :=
  (r.win, r.head, r.count, r.sum, r.avg)

theorem FilterSound.congr {r r' : Regs} (f : FilterSound r) (same : r'.filterPart = r.filterPart) :
    FilterSound r' := by
  obtain ⟨⟩ := r
  obtain ⟨⟩ := r'
  simp only [Regs.filterPart, Prod.mk.injEq] at same
  obtain ⟨rfl, rfl, rfl, rfl, rfl⟩ := same
  exact ⟨f.headZero, f.sumExact, f.avgMean, f.avgZero⟩

/-- The reset values of R25, whatever the window's cells hold. -/
theorem FilterSound.of_empty {r : Regs} (head : r.head = 0) (count : r.count = 0) (sum : r.sum = 0)
    (avg : r.avg = 0) : FilterSound r where
  headZero _ := head
  sumExact := by rw [Regs.window_eq_map_slot, count, sum]; rfl
  avgMean some := absurd count some
  avgZero _ := avg

/-- PUSH followed by AVERAGE (R130). -/
theorem FilterSound.push_average {r : Regs} (f : FilterSound r) (v : Conc) :
    FilterSound { r.push v with avg := (r.push v).average } where
  headZero notFull := by
    have count := r.push_count v
    have notFull : (r.push v).count.val < 6 := notFull
    have before : r.count ≠ 6 := fun h => by rw [h] at count; omega
    rw [Regs.push_notFull r v before]
    exact f.headZero (by omega)
  sumExact := r.push_sum_toNat v f.sumExact
  avgMean some := (r.push v).average_toNat (r.push_sum_toNat v f.sumExact) some
  avgZero none := absurd none (r.push_count_ne_zero v)

theorem Edge.filterSound {s u : State} (e : Edge s u) (f : FilterSound s.toRegs) : FilterSound u.toRegs := by
  cases e with
  | reset => exact .of_empty rfl rfl rfl rfl
  | commitOk c => exact (f.push_average c).congr rfl
  | _ => exact f.congr rfl

/-! ### The exchange's half -/

/-- The clauses of `Inv` on the registers of a running exchange. -/
structure ExchangeSound (r : Regs) : Prop where
  discardEntry : r.fsm = .discard → r.op = .read ∧ r.txIdx = 0
  txBound : r.fsm = .send → r.txIdx.toNat ≤ 9
  sendFresh : r.fsm = .send → r.op = .read → r.rxCnt = 0
  recvEntry : r.fsm = .recv → r.op = .read ∧ r.txIdx = 9
  rxBound : r.fsm = .recv → r.rxCnt.toNat ≤ 9

section
variable {r : Regs}

theorem ExchangeSound.of_idle (fsm : r.fsm = .idle) : ExchangeSound r := by
  constructor <;> simp [fsm]

theorem ExchangeSound.of_discard (fsm : r.fsm = .discard) (op : r.op = .read) (txIdx : r.txIdx = 0) :
    ExchangeSound r := by
  constructor <;> simp [fsm, op, txIdx]

theorem ExchangeSound.of_send (fsm : r.fsm = .send) (txBound : r.txIdx.toNat ≤ 9)
    (sendFresh : r.op = .read → r.rxCnt = 0) : ExchangeSound r :=
  ⟨by simp [fsm], fun _ => txBound, fun _ => sendFresh, by simp [fsm], by simp [fsm]⟩

theorem ExchangeSound.of_recv (fsm : r.fsm = .recv) (op : r.op = .read) (txIdx : r.txIdx = 9)
    (rxBound : r.rxCnt.toNat ≤ 9) : ExchangeSound r := by
  constructor <;> simp [fsm, op, txIdx, rxBound]

end

/-- An index register that counts one more below nine stays within nine. -/
theorem toNat_add_one_le_nine {x : BitVec 4} (h : x.toNat < 9) : (x + 1).toNat ≤ 9 := by
  rw [BitVec.toNat_add]
  exact Nat.le_trans (Nat.mod_le _ _) h

theorem Edge.exchangeSound {s u : State} (e : Edge s u) (x : ExchangeSound s.toRegs) : ExchangeSound u.toRegs := by
  cases e with
  | reset => exact .of_idle rfl
  | idle | sendWait | receiveWait => exact x
  | poll => exact .of_discard rfl rfl rfl
  | set o run fsm valid code =>
    refine .of_send rfl (Nat.zero_le 9) fun read => ?_
    obtain rfl : o = .read := read
    simp at code
  | clearErrors run fsm | humFail run fsm => exact .of_idle fsm
  | discard run fsm =>
    obtain ⟨-, txIdx⟩ := x.discardEntry fsm
    exact .of_send rfl (by simp [txIdx]) fun _ => rfl
  | sendByte run fsm more ready =>
    exact .of_send fsm (toNat_add_one_le_nine more) (x.sendFresh fsm)
  | flush run fsm whole empty =>
    by_cases read : s.op = .read
    · have rxCnt := x.sendFresh fsm read
      exact .of_recv (if_pos read) read whole (by simp [rxCnt])
    · exact .of_idle (if_neg read)
  | receiveByte b rest run fsm notLast more =>
    obtain ⟨op, txIdx⟩ := x.recvEntry fsm
    exact .of_recv fsm op txIdx (toNat_add_one_le_nine more)
  | commitOk | commitError => exact .of_idle rfl

/-! ### The whole -/

theorem inv_iff (s : State) : Inv s ↔ FilterSound s.toRegs ∧ ExchangeSound s.toRegs := by
  constructor
  · intro h
    exact ⟨⟨h.headZero, h.sumExact, h.avgMean, h.avgZero⟩,
      ⟨h.discardEntry, h.txBound, h.sendFresh, h.recvEntry, h.rxBound⟩⟩
  · rintro ⟨f, x⟩
    exact ⟨f.headZero, f.sumExact, f.avgMean, f.avgZero,
      x.discardEntry, x.txBound, x.sendFresh, x.recvEntry, x.rxBound⟩

theorem Edge.inv {s u : State} (e : Edge s u) (h : Inv s) : Inv u := by
  obtain ⟨f, x⟩ := (inv_iff s).mp h
  exact (inv_iff u).mpr ⟨e.filterSound f, e.exchangeSound x⟩

/-- The end of the cycle touches no register. -/
theorem Inv.endCycle {s : State} (h : Inv s) : Inv s.endCycle :=
  (inv_iff _).mpr ((inv_iff s).mp h)

/-- Settles O19: the registers with a reset value are those of an empty filter, and the block is idle. -/
theorem invariantHoldsAtReset : Obligations.InvariantHoldsAtReset :=
  (inv_iff _).mpr ⟨.of_empty rfl rfl rfl rfl, .of_idle rfl⟩

/-- Settles O20, edge by edge: an edge that does not commit an Ok poll keeps the filter's half, PUSH and AVERAGE
re-establish it, and each transition establishes the exchange clauses of the state it goes to. -/
theorem everyStepKeepsTheInvariant : Obligations.EveryStepKeepsTheInvariant := by
  intro s t h stepped
  obtain ⟨u, e, rfl⟩ := (step_eq_next_iff s t).mp stepped
  exact (e.inv h).endCycle

end Sys2Proof.Machine
end

section
/-!
The outputs and the reset (spec/10_state.md R15, R25; spec/30_encoding.md R60 to R63; spec/43_request_response_fsm.md
R115; spec/70_reset_and_hazards.md R160, R161).
-/

namespace Sys2Proof.Machine

theorem Regs.busy_iff (r : Regs) : r.busy = true ↔ r.fsm ≠ .idle := by
  simp [Regs.busy]

theorem Regs.avgValid_iff (r : Regs) : r.avgValid = true ↔ r.count ≠ 0 := by
  simp [Regs.avgValid]

theorem State.txValid_iff (s : State) : s.txValid = true ↔ s.fsm = .send ∧ s.txIdx.toNat < 9 := by
  simp [State.txValid]

theorem State.rxReady_iff (s : State) :
    s.rxReady = true ↔ s.fsm = .recv ∧ s.rxCnt.toNat < 9 ∧ s.pins.rxTimeout = false := by
  simp [State.rxReady, and_assoc]

/-- While a byte is offered, `tx_data` is that byte of the selected frame (R63). -/
theorem State.txData_of_txValid {s : State} (valid : s.txValid = true) (h : s.txIdx.toNat < 9) :
    s.txData = (frameOf Config.hw s.op)[s.txIdx.toNat] := by
  rw [State.txData, if_pos valid, Vector.getElem?_eq_getElem h, Option.getD_some]

/-! ### The outputs, port by port -/

@[simp] theorem State.outputs_cmdReady (s : State) :
    s.outputs.cmdReady = (s.fsm == .idle && !s.pins.rst) := rfl
@[simp] theorem State.outputs_busy (s : State) : s.outputs.busy = s.busy := rfl
@[simp] theorem State.outputs_avg (s : State) : s.outputs.avg = s.avg := rfl
@[simp] theorem State.outputs_avgValid (s : State) : s.outputs.avgValid = s.avgValid := rfl
@[simp] theorem State.outputs_co2Err (s : State) : s.outputs.co2Err = s.co2Err := rfl
@[simp] theorem State.outputs_humErr (s : State) : s.outputs.humErr = s.humErr := rfl
@[simp] theorem State.outputs_rspValid (s : State) : s.outputs.rspValid = s.rspValid := rfl
@[simp] theorem State.outputs_rspStatus (s : State) :
    s.outputs.rspStatus = if s.rspValid then s.outcome.status else 0 := rfl
@[simp] theorem State.outputs_rspConc (s : State) :
    s.outputs.rspConc = if s.rspValid then s.outcome.conc else 0 := rfl
@[simp] theorem State.outputs_txValid (s : State) : s.outputs.txValid = s.txValid := rfl
@[simp] theorem State.outputs_txData (s : State) : s.outputs.txData = s.txData := rfl
@[simp] theorem State.outputs_txFlush (s : State) : s.outputs.txFlush = (s.fsm == .send && s.txIdx == 9) := rfl
@[simp] theorem State.outputs_rxDiscard (s : State) : s.outputs.rxDiscard = (s.fsm == .discard) := rfl
@[simp] theorem State.outputs_rxReq (s : State) : s.outputs.rxReq = (s.fsm == .recv) := rfl
@[simp] theorem State.outputs_rxReady (s : State) : s.outputs.rxReady = s.rxReady := rfl

/-- Settles O52, port by port of the table. -/
theorem outputsFollowTheStateTable : Obligations.OutputsFollowTheStateTable := by
  intro s
  refine ⟨s.busy_iff, s.avgValid_iff, rfl, rfl, rfl, ?cmdReady, ?rxDiscard, s.txValid_iff, ?txData, ?txFlush,
    ?rxReq, s.rxReady_iff, s.rspValid_iff, ?outcome, ?noOutcome⟩
  case cmdReady => simp
  case rxDiscard => simp
  case txData => exact fun h send => State.txData_of_txValid (s.txValid_iff.mpr ⟨send, h⟩) h
  case txFlush => simp
  case rxReq => simp
  case outcome =>
    intro valid
    exact ⟨if_pos valid, if_pos valid⟩
  case noOutcome =>
    intro valid
    have invalid : ¬ s.rspValid = true := Bool.eq_false_iff.mp valid
    exact ⟨if_neg invalid, if_neg invalid⟩

/-! ### The reset -/

/-- The idle block is not busy and shows no outcome, whatever the inputs. -/
theorem State.outputs_of_idle {s : State} (idle : s.fsm = .idle) :
    s.outputs.busy = false ∧ s.outputs.rspValid = false ∧ s.outputs.rspStatus = 0 ∧ s.outputs.rspConc = 0 := by
  have noOutcome : s.rspValid = false := State.rspValid_of_fsm_ne (by simp [idle])
  simp [Regs.busy, idle, noOutcome]

/-- Settles O17: the registers by definition, the outputs as those of the idle block with an empty window. -/
theorem resetLeavesTheGivenValues : Obligations.ResetLeavesTheGivenValues := by
  obtain ⟨busy, rspValid, rspStatus, rspConc⟩ := State.outputs_of_idle (s := State.reset) rfl
  exact ⟨rfl, rfl, rfl, rfl, rfl, rfl, rfl, busy, rfl, rspValid, rspStatus, rspConc⟩

/-- Settles O18: the next state is `resetEdge` at the end of its cycle, an idle block with an empty window. -/
theorem resetEdgeOverridesEverything : Obligations.ResetEdgeOverridesEverything := by
  intro s rst
  obtain ⟨busy, rspValid, -, -⟩ := State.outputs_of_idle (s := s.resetEdge.endCycle) rfl
  refine ⟨by simp [rst], _, step_reset s rst, rfl, rfl, rfl, rfl, rfl, rfl, rfl, rfl, rfl, rfl, ?ready, busy, rfl, rfl,
    rfl, rfl, rspValid⟩
  case ready => intro run; simp [run]

end Sys2Proof.Machine
end

section
/-!
What each edge does to the error counters, to `op` and to `rx_buf` (spec/10_state.md R11, R14, R17 to R19).
-/

namespace Sys2Proof.Machine

/-! ### The saturating increment -/

theorem satInc_of_lt {w : Nat} {v : BitVec w} (below : v.toNat < 2 ^ w - 1) : (satInc v).toNat = v.toNat + 1 := by
  rw [satInc, if_pos below, BitVec.toNat_ofNat, Nat.mod_eq_of_lt (by omega)]

theorem satInc_of_max {w : Nat} {v : BitVec w} (max : v.toNat = 2 ^ w - 1) : satInc v = v :=
  if_neg (by omega)

theorem le_satInc {w : Nat} (v : BitVec w) : v.toNat ≤ (satInc v).toNat := by
  by_cases below : v.toNat < 2 ^ w - 1
  · rw [satInc_of_lt below]
    exact Nat.le_succ _
  · rw [satInc, if_neg below]

/-- Settles O41, at width 32 of the facts for every width. -/
theorem countersSaturate : Obligations.CountersSaturate :=
  fun v => ⟨satInc_of_lt, satInc_of_max, le_satInc v⟩

/-! ### The error counters -/

/-- Settles O46, edge by edge: of the edges without reset only a failed completion and CLEAR_ERRORS write `co2_err`. -/
theorem co2ErrCountsFailedPolls : Obligations.Co2ErrCountsFailedPolls := by
  intro s t stepped
  obtain ⟨u, e, rfl⟩ := (step_eq_next_iff s t).mp stepped
  rw [State.endCycle_toRegs]
  cases e with
  | reset rst => simp [rst]
  | idle run fsm code =>
    cases valid : s.pins.cmdValid with
    | false => simp [run, fsm, State.rspValid_of_fsm_ne]
    | true => obtain c | c := code valid <;> simp [run, fsm, c, State.rspValid_of_fsm_ne]
  | poll run fsm valid code | clearErrors run fsm valid code | humFail run fsm valid code =>
    simp [run, fsm, code, valid, State.rspValid_of_fsm_ne]
  | set o run fsm valid code =>
    obtain ⟨c, -⟩ | ⟨c, -⟩ | ⟨c, -⟩ := code <;> simp [run, fsm, c, State.rspValid_of_fsm_ne]
  | discard run fsm | sendWait run fsm | sendByte run fsm | flush run fsm =>
    simp [run, fsm, State.rspValid_of_fsm_ne]
  | receiveWait run fsm notLast | receiveByte _ _ run fsm notLast => simp [run, fsm, notLast]
  | commitOk c run last ok => simp [run, State.fsm_of_rspValid last, ok, Reading.status, State.commitOk]
  | commitError run last failed =>
    rw [if_neg (by simp [run]), if_pos ⟨last, failed⟩]
    rfl

/-- Settles O47, edge by edge: of the edges without reset only HUM_FAIL and CLEAR_ERRORS write `hum_err`. -/
theorem humErrCountsHumFail : Obligations.HumErrCountsHumFail := by
  intro s t stepped
  obtain ⟨u, e, rfl⟩ := (step_eq_next_iff s t).mp stepped
  rw [State.endCycle_toRegs]
  cases e with
  | reset rst => simp [rst]
  | idle run fsm code =>
    cases valid : s.pins.cmdValid with
    | false => simp [run]
    | true => obtain c | c := code valid <;> simp [run, c]
  | poll run fsm valid code | clearErrors run fsm valid code | humFail run fsm valid code =>
    simp [run, fsm, code, valid]
  | set o run fsm valid code =>
    obtain ⟨c, -⟩ | ⟨c, -⟩ | ⟨c, -⟩ := code <;> simp [run, fsm, c]
  | discard run fsm | sendWait run fsm | sendByte run fsm | flush run fsm
  | receiveWait run fsm | receiveByte _ _ run fsm => simp [run, fsm]
  | commitOk c run last => simp [run, State.fsm_of_rspValid last, State.commitOk]
  | commitError run last => simp [run, State.fsm_of_rspValid last]

/-! ### `op` and `rx_buf` -/

/-- Settles O43: every edge without reset but the acceptances keeps `op`. -/
theorem opChangesOnlyOnAcceptance : Obligations.OpChangesOnlyOnAcceptance := by
  intro s t run stepped changed
  obtain ⟨u, e, rfl⟩ := (step_eq_next_iff s t).mp stepped
  rw [State.endCycle_toRegs] at changed
  simp only [State.endCycle_toRegs]
  cases e with
  | reset rst => simp [rst] at run
  | poll _ fsm valid code => exact ⟨fsm, valid, .inl ⟨code, rfl⟩⟩
  | set o _ fsm valid code => exact ⟨fsm, valid, .inr code⟩
  | commitOk c => exact absurd (s.toRegs.push_op c) changed
  | _ => exact absurd rfl changed

/-- Settles O44: every edge without reset but the byte step of RECV keeps `rx_buf`. -/
theorem receiveBufferIsWrittenOnlyByReceiving : Obligations.ReceiveBufferIsWrittenOnlyByReceiving := by
  intro s t run stepped changed
  obtain ⟨u, e, rfl⟩ := (step_eq_next_iff s t).mp stepped
  rw [State.endCycle_toRegs] at changed
  simp only [State.endCycle_toRegs]
  cases e with
  | reset rst => simp [rst] at run
  | receiveByte b rest _ fsm _ more ready _ oldest =>
    obtain ⟨-, -, timeout⟩ := s.rxReady_iff.mp ready
    exact ⟨fsm, timeout, b, rest, more, oldest, rfl, rfl⟩
  | commitOk c => exact absurd (s.toRegs.push_rxBuf c) changed
  | _ => exact absurd rfl changed

end Sys2Proof.Machine
end

section
/-!
SUPPORT. Nothing but the registers, the transport's buffers and the cycle's inputs influences the block (spec/10_state.md
R10): states that agree on these take the same edge, and go on to states whose registers and buffers agree.
-/

namespace Sys2Proof.Machine

/-- Two states that agree on all but the model's own record: the elapsed edges, the later inputs, the events so far. -/
structure SameBlock (s s' : State) : Prop where
  regs : s.toRegs = s'.toRegs
  linkIn : s.linkIn = s'.linkIn
  linkOut : s.linkOut = s'.linkOut
  pins : s.pins = s'.pins

namespace SameBlock
variable {s s' : State}

theorem rspValid (h : SameBlock s s') : s.rspValid = s'.rspValid := by
  simp only [State.rspValid, h.regs, h.pins]

theorem rxReady (h : SameBlock s s') : s.rxReady = s'.rxReady := by
  simp only [State.rxReady, h.regs, h.pins]

theorem rxValid (h : SameBlock s s') : s.rxValid = s'.rxValid := by
  simp only [State.rxValid, h.linkIn, h.pins]

theorem txEmpty (h : SameBlock s s') : s.txEmpty = s'.txEmpty := by
  simp only [State.txEmpty, h.linkOut, h.pins]

theorem txValid (h : SameBlock s s') : s.txValid = s'.txValid := by
  simp only [State.txValid, h.regs]

theorem outcome (h : SameBlock s s') : s.outcome = s'.outcome := by
  simp only [State.outcome, h.regs]

/-- The outputs agree, `tx_data` aside. -/
theorem outputs (h : SameBlock s s') : { s.outputs with txData := 0 } = { s'.outputs with txData := 0 } := by
  simp only [State.outputs, h.regs, h.pins, h.rspValid, h.outcome, h.txValid, h.rxReady]

/-- `tx_data` agrees while a byte is offered. -/
theorem txData (h : SameBlock s s') (valid : s.txValid = true) : s.txData = s'.txData := by
  have valid' : s'.txValid = true := h.txValid ▸ valid
  simp only [State.txData, valid, valid', if_pos, h.regs]

/-- The end of the cycle: arrivals and departures are inputs of the cycle. -/
theorem endCycle_linkIn (h : SameBlock s s') : s.endCycle.linkIn = s'.endCycle.linkIn := by
  rw [State.endCycle_linkIn, State.endCycle_linkIn, h.linkIn, h.pins]

theorem endCycle_linkOut (h : SameBlock s s') : s.endCycle.linkOut = s'.endCycle.linkOut := by
  rw [State.endCycle_linkOut, State.endCycle_linkOut, h.linkOut, h.pins]

/-- States that agree take the same edge, to states that agree. -/
theorem edge (h : SameBlock s s') (run : s.pins.rst = false) {u : State} (e : Edge s u) :
    ∃ u', Edge s' u' ∧ SameBlock u u' := by
  have run' : s'.pins.rst = false := h.pins ▸ run
  have last := h.rspValid
  have outcome := h.outcome
  have rxReady := h.rxReady
  have rxValid := h.rxValid
  have txEmpty := h.txEmpty
  obtain ⟨r, linkIn, linkOut, inputs, cycle, observed⟩ := s
  obtain ⟨r', linkIn', linkOut', inputs', cycle', observed'⟩ := s'
  have ⟨regs, li, lo, pins⟩ := h
  dsimp only at regs li lo
  subst regs li lo
  cases e with
  | reset rst => simp [rst] at run
  | idle _ fsm code => exact ⟨_, .idle run' fsm (pins ▸ code), h⟩
  | poll _ fsm valid code =>
    exact ⟨_, .poll run' fsm (pins ▸ valid) (pins ▸ code), rfl, rfl, rfl, pins⟩
  | set o _ fsm valid code =>
    exact ⟨_, .set o run' fsm (pins ▸ valid) (pins ▸ code), rfl, rfl, rfl, pins⟩
  | clearErrors _ fsm valid code =>
    exact ⟨_, .clearErrors run' fsm (pins ▸ valid) (pins ▸ code), rfl, rfl, rfl, pins⟩
  | humFail _ fsm valid code =>
    exact ⟨_, .humFail run' fsm (pins ▸ valid) (pins ▸ code), rfl, rfl, rfl, pins⟩
  | discard _ fsm => exact ⟨_, .discard run' fsm, rfl, rfl, rfl, pins⟩
  | sendWait _ fsm noByte noFlush =>
    exact ⟨_, .sendWait run' fsm (pins ▸ noByte) (txEmpty ▸ noFlush), h⟩
  | sendByte _ fsm more ready => exact ⟨_, .sendByte run' fsm more (pins ▸ ready), rfl, rfl, rfl, pins⟩
  | flush _ fsm whole empty => exact ⟨_, .flush run' fsm whole (txEmpty ▸ empty), rfl, rfl, rfl, pins⟩
  | receiveWait _ fsm notLast noByte =>
    exact ⟨_, .receiveWait run' fsm (last ▸ notLast) (rxReady ▸ rxValid ▸ noByte), h⟩
  | receiveByte b rest _ fsm notLast more ready valid oldest =>
    exact ⟨_, .receiveByte b rest run' fsm (last ▸ notLast) more (rxReady ▸ ready) (rxValid ▸ valid) oldest,
      rfl, rfl, rfl, pins⟩
  | commitOk c _ isLast ok =>
    exact ⟨_, .commitOk c run' (last ▸ isLast) (outcome ▸ ok), rfl, rfl, rfl, pins⟩
  | commitError _ isLast failed =>
    exact ⟨_, .commitError run' (last ▸ isLast) (outcome ▸ failed), rfl, rfl, rfl, pins⟩

end SameBlock

/-- Settles O51: agreeing states show the same outputs and take the same edge. -/
theorem onlyRegistersAndPortsMatter : Obligations.OnlyRegistersAndPortsMatter := by
  intro s s' t t' regs linkIn linkOut pins run stepped stepped'
  have h : SameBlock s s' := ⟨regs, linkIn, linkOut, pins⟩
  obtain ⟨u, e, rfl⟩ := (step_eq_next_iff s t).mp stepped
  obtain ⟨u', e', after⟩ := h.edge run e
  obtain rfl : t' = u'.endCycle := Host.Outcome.next.inj (stepped'.symm.trans e'.step_eq)
  exact ⟨after.regs, after.endCycle_linkIn, after.endCycle_linkOut, h.outputs, h.txData⟩

end Sys2Proof.Machine
end

section
/-!
The order of the summed bytes (spec/40_checksum.md R70, R75) and the ranges of the index spaces (spec/20_memory.md R30).
-/

namespace Sys2Proof.Machine

/-- SUM7 as the sum of a list, on which the order of the bytes has no bearing. -/
theorem sum7_eq_ofNat_listSum (b1 b2 b3 b4 b5 b6 b7 : Byte) :
    sum7 b1 b2 b3 b4 b5 b6 b7 = BitVec.ofNat 8 ([b1, b2, b3, b4, b5, b6, b7].map BitVec.toNat).sum := by
  simp [sum7, Nat.add_assoc]

/-- Settles O2: permuted lists have the same sum, and CHK is a function of SUM7. -/
theorem checksumIgnoresByteOrder : Obligations.ChecksumIgnoresByteOrder := by
  intro b1 b2 b3 b4 b5 b6 b7 c1 c2 c3 c4 c5 c6 c7 perm
  have sameSum : sum7 b1 b2 b3 b4 b5 b6 b7 = sum7 c1 c2 c3 c4 c5 c6 c7 := by
    rw [sum7_eq_ofNat_listSum, sum7_eq_ofNat_listSum, (perm.map BitVec.toNat).sum_eq]
  exact ⟨sameSum, by rw [chk, chk, sameSum]⟩

/-- A register file of `n` words has an element exactly below `n`. -/
theorem isSome_getElem?_toNat {w n : Nat} (v : Vector (BitVec w) n) (i : Nat) :
    (v[i]?.map BitVec.toNat).isSome ↔ i < n := by
  rw [Option.isSome_map, isSome_getElem?]

/-- Settles O16: each index space is a vector of its size. -/
theorem indexSpacesHaveTheirRanges : Obligations.IndexSpacesHaveTheirRanges :=
  fun r o i => ⟨isSome_getElem?_toNat (frameOf Config.hw o) i, isSome_getElem?_toNat r.rxBuf i,
    isSome_getElem?_toNat r.win i⟩

end Sys2Proof.Machine
end

section
/-!
What each edge does to the status outputs and to the transport's two buffers (spec/20_memory.md R41, R42;
spec/43_request_response_fsm.md R103, R112, R114).
-/

namespace Sys2Proof.Machine

/-! ### The status outputs -/

/-- Settles O48: of the edges without reset only the two commits, CLEAR_ERRORS and HUM_FAIL write `count`, `avg` or an
error counter. -/
theorem statusOutputsHoldBetweenCommits : Obligations.StatusOutputsHoldBetweenCommits := by
  intro s t run stepped notLast noClear
  obtain ⟨u, e, rfl⟩ := (step_eq_next_iff s t).mp stepped
  cases e with
  | reset rst => simp [rst] at run
  | clearErrors _ fsm valid code => exact absurd ⟨fsm, valid, .inl code⟩ noClear
  | humFail _ fsm valid code => exact absurd ⟨fsm, valid, .inr code⟩ noClear
  | commitOk _ _ last | commitError _ last => simp [last] at notLast
  | _ => rfl

/-! ### When the link moves no byte -/

theorem State.rxReady_of_fsm_ne {s : State} (h : s.fsm ≠ .recv) : s.rxReady = false := by
  simp [State.rxReady, h]

theorem State.txValid_of_fsm_ne {s : State} (h : s.fsm ≠ .send) : s.txValid = false := by
  simp [State.txValid, h]

/-- No byte is taken in the last cycle of RECV: all nine are there, or the timeout has come (R107). -/
theorem State.rxReady_of_rspValid {s : State} (last : s.rspValid = true) : s.rxReady = false := by
  refine Bool.eq_false_iff.mpr fun ready => ?_
  obtain ⟨-, more, noTimeout⟩ := s.rxReady_iff.mp ready
  obtain ⟨-, nine | timeout⟩ := s.rspValid_iff.mp last
  · simp [nine] at more
  · simp [timeout] at noTimeout

/-! ### The transport's buffers -/

/-- The inputs of the cycle are those before the edge until the cycle ends. -/
theorem Edge.pins {s u : State} (e : Edge s u) : u.pins = s.pins := by
  cases e <;> rfl

/-- The input buffer loses its oldest byte to a byte step of RECV and all it holds to the discard. -/
theorem Edge.linkIn {s u : State} (e : Edge s u) :
    u.linkIn =
      if s.pins.rst = true then s.linkIn
      else if s.fsm = .discard then []
      else if s.rxReady = true ∧ s.rxValid = true then s.linkIn.tail
      else s.linkIn := by
  cases e with
  | reset rst => simp [rst]
  | idle run fsm | poll run fsm | set _ run fsm | clearErrors run fsm | humFail run fsm
  | sendWait run fsm | sendByte run fsm | flush run fsm => simp [run, fsm, State.rxReady_of_fsm_ne]
  | discard run fsm => simp [run, fsm]
  | receiveWait run fsm _ noByte => simp only [run, fsm, noByte, reduceCtorEq, if_false]
  | receiveByte b rest run fsm _ _ ready valid oldest => simp [run, fsm, ready, valid, oldest]
  | commitOk _ run last | commitError run last =>
    simp [run, State.fsm_of_rspValid last, State.rxReady_of_rspValid last]

/-- The output buffer gains the byte offered when the transport takes it. -/
theorem Edge.linkOut {s u : State} (e : Edge s u) :
    u.linkOut =
      if s.pins.rst = false ∧ s.txValid = true ∧ s.pins.txReady = true then s.linkOut ++ [s.txData]
      else s.linkOut := by
  cases e with
  | reset rst => simp [rst]
  | idle _ fsm | poll _ fsm | set _ _ fsm | clearErrors _ fsm | humFail _ fsm | discard _ fsm
  | receiveWait _ fsm | receiveByte _ _ _ fsm => simp [fsm, State.txValid_of_fsm_ne]
  | sendWait _ _ noByte =>
    rw [if_neg fun ⟨_, valid, ready⟩ => noByte ⟨(s.txValid_iff.mp valid).2, ready⟩]
  | sendByte run fsm more ready =>
    have valid : s.txValid = true := s.txValid_iff.mpr ⟨fsm, more⟩
    rw [if_pos ⟨run, valid, ready⟩, State.txData_of_txValid valid more]
  | flush _ _ whole => simp [State.txValid, whole]
  | commitOk _ _ last | commitError _ last =>
    simp [State.fsm_of_rspValid last, State.txValid_of_fsm_ne]

/-- Settles O50: what an edge does to each buffer, then the arrivals and departures of the cycle. -/
theorem linkBuffersKeepOrder : Obligations.LinkBuffersKeepOrder := by
  intro s t stepped
  obtain ⟨u, e, rfl⟩ := (step_eq_next_iff s t).mp stepped
  rw [State.endCycle_linkIn, State.endCycle_linkOut, e.pins, e.linkIn, e.linkOut]
  refine ⟨?_, rfl⟩
  split_ifs <;> rfl

/-- Settles O24: the step is `discardStep`, and of all edges only the acceptance of POLL_CO2 goes to DISCARD. -/
theorem discardStepDropsStaleBytes : Obligations.DiscardStepDropsStaleBytes := by
  constructor
  · intro s fsm run
    exact ⟨by simp [fsm], step_discard s run fsm⟩
  · intro s t stepped discard
    obtain ⟨u, e, rfl⟩ := (step_eq_next_iff s t).mp stepped
    rw [State.endCycle_toRegs] at discard
    cases e with
    | poll run fsm valid code => exact ⟨fsm, run, valid, code⟩
    | idle _ fsm | clearErrors _ fsm | humFail _ fsm | sendWait _ fsm | sendByte _ fsm | receiveWait _ fsm
    | receiveByte _ _ _ fsm => simp [fsm] at discard
    | flush => by_cases read : s.op = .read <;> simp [read] at discard
    | reset | set | discard | commitOk | commitError => simp at discard

end Sys2Proof.Machine
end

section
/-!
The order of an exchange (spec/20_memory.md R40; spec/43_request_response_fsm.md R111, R112): each edge records the
events by which the registers' own account of the exchange, `State.exchangeSoFar`, grows.
-/

namespace Sys2Proof.Machine

/-! ### Frames, byte by byte -/

@[simp] theorem frameBytes_length (f : Frame) : (frameBytes f).length = 9 := f.length_toList

theorem take_frameBytes_nine (f : Frame) : (frameBytes f).take 9 = frameBytes f :=
  List.take_of_length_le (frameBytes_length f).le

/-- One byte more of a frame. -/
theorem take_frameBytes_succ (f : Frame) (k : Nat) (h : k < 9) :
    (frameBytes f).take (k + 1) = (frameBytes f).take k ++ [f[k]] := by
  rw [List.take_succ_eq_append_getElem (by simpa using h)]
  rfl

/-- Storing a byte behind the first `k` makes it the next of them (R106). -/
theorem take_frameBytes_set (f : Frame) (k : Nat) (b : Byte) (h : k < 9) :
    (frameBytes (f.set k b h)).take (k + 1) = (frameBytes f).take k ++ [b] := by
  have before : (frameBytes (f.set k b h)).take k = (frameBytes f).take k := by
    rw [frameBytes, Vector.toList_set h, List.take_set_of_le le_rfl, frameBytes]
  rw [take_frameBytes_succ _ k h, before, Vector.getElem_set_self]

/-- An index register below nine counts one more without wrapping. -/
theorem toNat_add_one {x : BitVec 4} (h : x.toNat < 9) : (x + 1).toNat = x.toNat + 1 :=
  BitVec.toNat_add_of_lt (show x.toNat + 1 < 16 by omega)

theorem pollTrace_concat (answer : List Byte) (b : Byte) :
    pollTrace (answer ++ [b]) = pollTrace answer ++ [.received b] := by
  simp [pollTrace]

/-! ### The account of the exchange, one equation per FSM state -/

theorem State.exchangeSoFar_idle {s : State} (h : s.fsm = .idle) : s.exchangeSoFar = [] := by
  simp [State.exchangeSoFar, h]

theorem State.exchangeSoFar_discard {s : State} (h : s.fsm = .discard) : s.exchangeSoFar = [] := by
  simp [State.exchangeSoFar, h]

theorem State.exchangeSoFar_send {s : State} (h : s.fsm = .send) :
    s.exchangeSoFar
      = (if s.op = .read then [.discardInput] else [])
        ++ ((frameBytes (frameOf Config.hw s.op)).take s.txIdx.toNat).map .sent := by
  simp only [State.exchangeSoFar, h]

theorem State.exchangeSoFar_recv {s : State} (h : s.fsm = .recv) :
    s.exchangeSoFar = pollTrace ((frameBytes s.rxBuf).take s.rxCnt.toNat) := by
  simp only [State.exchangeSoFar, h]

@[simp] theorem State.endCycle_exchangeSoFar (s : State) : s.endCycle.exchangeSoFar = s.exchangeSoFar := rfl

/-- The flush after the ninth byte of the READ frame opens the read with nothing received (R105). -/
theorem State.exchangeSoFar_flushed_read {s : State} (fsm : s.fsm = .send) (whole : s.txIdx = 9) (read : s.op = .read) :
    s.exchangeSoFar ++ [.flushed] = pollTrace [] := by
  rw [State.exchangeSoFar_send fsm, if_pos read, whole, read]
  rfl

/-- The flush after the ninth byte of another frame ends a SET command (R105). -/
theorem State.exchangeSoFar_flushed_set {s : State} (fsm : s.fsm = .send) (whole : s.txIdx = 9) (set : s.op ≠ .read) :
    s.exchangeSoFar ++ [.flushed] = setTrace s.op := by
  have nine : (9 : BitVec 4).toNat = 9 := rfl
  rw [State.exchangeSoFar_send fsm, if_neg set, whole, nine, take_frameBytes_nine, List.nil_append, setTrace]

/-! ### The edges of an exchange -/

/-- While the exchange runs, the account of it grows by the events the edge records. -/
theorem Edge.exchangeSoFar_eq_append {s u : State} (e : Edge s u) (x : ExchangeSound s.toRegs)
    (run : s.pins.rst = false) (busy : s.fsm ≠ .idle) (going : u.fsm ≠ .idle) :
    ∃ evs, u.observed = s.observed ++ evs ∧ u.exchangeSoFar = s.exchangeSoFar ++ evs := by
  cases e with
  | reset rst => simp [rst] at run
  | idle _ fsm | poll _ fsm | set _ _ fsm | clearErrors _ fsm | humFail _ fsm => exact absurd fsm busy
  | sendWait | receiveWait => exact ⟨[], by simp⟩
  | discard _ fsm =>
    obtain ⟨read, txIdx⟩ := x.discardEntry fsm
    refine ⟨[.discardInput], rfl, ?_⟩
    rw [State.exchangeSoFar_discard fsm, State.exchangeSoFar_send s.discardStep_fsm]
    simp [read, txIdx]
  | sendByte _ fsm more =>
    refine ⟨[.sent (frameOf Config.hw s.op)[s.txIdx.toNat]], rfl, ?_⟩
    rw [State.exchangeSoFar_send fsm, State.exchangeSoFar_send (by exact fsm)]
    simp only [toNat_add_one more, take_frameBytes_succ _ _ more, List.map_append, List.map_singleton,
      List.append_assoc]
  | flush _ fsm whole =>
    by_cases read : s.op = .read
    · refine ⟨[.flushed], rfl, ?_⟩
      rw [State.exchangeSoFar_flushed_read fsm whole read, State.exchangeSoFar_recv (if_pos read)]
      simp [x.sendFresh fsm read]
    · exact absurd (if_neg read) going
  | receiveByte b rest _ fsm _ more =>
    refine ⟨[.received b], rfl, ?_⟩
    rw [State.exchangeSoFar_recv fsm, State.exchangeSoFar_recv (by exact fsm)]
    simp only [toNat_add_one more, take_frameBytes_set _ _ _ more, pollTrace_concat]
  | commitOk | commitError => exact absurd rfl going

/-- The last cycle of RECV records the outcome on the port and nothing else (R107). -/
theorem Edge.observed_of_rspValid {s u : State} (e : Edge s u) (run : s.pins.rst = false) (last : s.rspValid = true) :
    u.observed = s.observed ++ [.rsp s.outcome.status s.outcome.conc] := by
  have completed : u.endCycle = s.complete.endCycle :=
    Host.Outcome.next.inj (e.step_eq.symm.trans (step_complete s run last))
  rw [← u.endCycle_observed, completed, State.endCycle_observed, s.complete_observed]

/-- An exchange ends with the outcome of a poll or with the flush of a SET command. -/
theorem Edge.exchange_ends {s u : State} (e : Edge s u) (x : ExchangeSound s.toRegs) (run : s.pins.rst = false)
    (busy : s.fsm ≠ .idle) (ended : u.fsm = .idle) :
    (s.op = .read ∧ s.fsm = .recv ∧ u.observed = s.observed ++ [.rsp s.outcome.status s.outcome.conc])
    ∨ (s.op ≠ .read ∧ s.fsm = .send ∧ s.txIdx = 9 ∧ u.observed = s.observed ++ [.flushed]) := by
  have outcome := e.observed_of_rspValid run
  cases e with
  | reset rst => simp [rst] at run
  | idle _ fsm | poll _ fsm | set _ _ fsm | clearErrors _ fsm | humFail _ fsm => exact absurd fsm busy
  | discard => simp at ended
  | sendWait | sendByte | receiveWait | receiveByte => exact absurd ended busy
  | flush _ fsm whole =>
    have set : s.op ≠ .read := fun read => by simp [read] at ended
    exact .inr ⟨set, fsm, whole, rfl⟩
  | commitOk _ _ last | commitError _ last =>
    have recv := State.fsm_of_rspValid last
    exact .inl ⟨(x.recvEntry recv).1, recv, outcome last⟩

/-- An idle block records nothing, and an exchange it starts has no events yet (R101). -/
theorem Edge.exchange_starts {s u : State} (e : Edge s u) (run : s.pins.rst = false) (idle : s.fsm = .idle) :
    u.observed = s.observed ∧ u.exchangeSoFar = [] := by
  cases e with
  | reset rst => simp [rst] at run
  | idle | clearErrors | humFail => exact ⟨rfl, State.exchangeSoFar_idle idle⟩
  | poll => exact ⟨rfl, State.exchangeSoFar_discard rfl⟩
  | set o _ _ _ code =>
    have set : o ≠ .read := by rintro rfl; simp at code
    refine ⟨rfl, ?_⟩
    rw [State.exchangeSoFar_send rfl]
    simp [set]
  | discard _ fsm | sendWait _ fsm | sendByte _ fsm | flush _ fsm | receiveWait _ fsm | receiveByte _ _ _ fsm =>
    simp [fsm] at idle
  | commitOk _ _ last | commitError _ last => simp [State.fsm_of_rspValid last] at idle

/-- Settles O53: an edge inside the exchange records what the account of it grows by, the edge that ends it completes a
poll's or a SET command's events, and the edge that starts it records none. -/
theorem exchangeCallsStayInOrder : Obligations.ExchangeCallsStayInOrder := by
  refine ⟨fun s t before inv run busy record stepped => ?_, fun s t run idle stepped => ?_⟩
  · obtain ⟨u, e, rfl⟩ := (step_eq_next_iff s t).mp stepped
    obtain ⟨-, x⟩ := (inv_iff s).mp inv
    simp only [State.endCycle_toRegs, State.endCycle_observed, State.endCycle_exchangeSoFar]
    constructor
    · intro going
      obtain ⟨evs, observed, account⟩ := e.exchangeSoFar_eq_append x run busy going
      rw [observed, account, record, List.append_assoc]
    · intro ended
      obtain ⟨read, recv, observed⟩ | ⟨set, send, whole, observed⟩ := e.exchange_ends x run busy ended
      · refine ⟨fun _ => ⟨recv, ?_⟩, fun notRead => absurd read notRead⟩
        rw [observed, record, State.exchangeSoFar_recv recv]
      · refine ⟨fun read => absurd read set, fun _ => ?_⟩
        rw [observed, record, List.append_assoc, State.exchangeSoFar_flushed_set send whole set]
  · obtain ⟨u, e, rfl⟩ := (step_eq_next_iff s t).mp stepped
    exact e.exchange_starts run idle

end Sys2Proof.Machine
end

section
/-!
SUPPORT. The decoder's two readings of a byte list, as a code and as a frame, the decoder on one frame of each kind, and
its inversion (spec/30_encoding.md R50 to R57).
-/

namespace Sys2Proof.Machine

/-! ### One byte as a code -/

/-- Bytes hold a code exactly when they are that code in one byte. -/
theorem codeOfBytes_eq_ok_iff (bytes : List Byte) (c : BitVec 3) :
    codeOfBytes bytes = .ok c ↔ bytes = [c.setWidth 8] := by
  match bytes with
  | [] => simp [codeOfBytes]
  | [b] =>
    have fits : b.toNat < 8 ∧ b.setWidth 3 = c ↔ b = c.setWidth 8 := by bv_omega
    by_cases lt : b.toNat < 8 <;> simpa [codeOfBytes, lt] using fits
  | _ :: _ :: _ => simp [codeOfBytes]

theorem codeOfBytes_of_length_ne_one {bytes : List Byte} (h : bytes.length ≠ 1) :
    codeOfBytes bytes = .error .notOneByte := by
  match bytes with
  | [] => rfl
  | [_] => exact absurd rfl h
  | _ :: _ :: _ => rfl

theorem codeOfBytes_of_lt {b : Byte} (h : b.toNat < 8) : codeOfBytes [b] = .ok (b.setWidth 3) :=
  if_pos h

theorem codeOfBytes_of_ge {b : Byte} (h : 8 ≤ b.toNat) : codeOfBytes [b] = .error .codeTooWide :=
  if_neg (Nat.not_lt.mpr h)

/-- Each command code is the encoding of its command (R53). -/
theorem encode_decodeCommand (c : BitVec 3) :
    (decodeCommand c).port = .command ∧ encode (decodeCommand c) = [c.setWidth 8] := by
  obtain rfl | rfl | rfl | rfl | rfl | rfl | rfl | rfl := commandCode_cases c <;> exact ⟨rfl, rfl⟩

/-- A status code that decodes is the encoding of its row (R54). -/
theorem encode_of_decodeStatus {c : BitVec 3} {i : Instr} (h : decodeStatus c = .ok i) :
    i.port = .outcome ∧ encode i = [c.setWidth 8] := by
  obtain rfl | rfl | rfl | rfl | rfl | rfl | rfl | rfl := commandCode_cases c <;> cases h <;> exact ⟨rfl, rfl⟩

theorem decodeStatus_of_lt {c : BitVec 3} (h : c.toNat < 5) : ∃ i, decodeStatus c = .ok i := by
  obtain rfl | rfl | rfl | rfl | rfl | rfl | rfl | rfl := commandCode_cases c
  iterate 5 exact ⟨_, rfl⟩
  all_goals simp at h

theorem decodeStatus_of_ge {c : BitVec 3} (h : 5 ≤ c.toNat) : decodeStatus c = .error .reservedStatus := by
  obtain rfl | rfl | rfl | rfl | rfl | rfl | rfl | rfl := commandCode_cases c
  iterate 5 simp at h
  all_goals rfl

/-! ### Nine bytes as a frame -/

/-- Bytes are a frame exactly when they are its nine bytes in wire order. -/
theorem frameOfBytes_eq_ok_iff (bytes : List Byte) (f : Frame) :
    frameOfBytes bytes = .ok f ↔ frameBytes f = bytes := by
  constructor
  · intro h
    unfold frameOfBytes at h
    split at h <;> cases h
    rfl
  · rintro rfl
    obtain ⟨⟨bytes⟩, nine⟩ := f
    match bytes, nine with
    | [_, _, _, _, _, _, _, _, _], _ => rfl

theorem frameOfBytes_of_length_ne_nine {bytes : List Byte} (h : bytes.length ≠ 9) :
    frameOfBytes bytes = .error .notNineBytes := by
  cases read : frameOfBytes bytes with
  | ok f => exact absurd ((frameOfBytes_eq_ok_iff bytes f).mp read ▸ frameBytes_length f) h
  | error e =>
    unfold frameOfBytes at read
    split at read <;> cases read
    rfl

theorem frameBytes_inj {f g : Frame} : frameBytes f = frameBytes g ↔ f = g :=
  Vector.toList_inj

theorem decode_link_frameBytes (f : Frame) : decode .link (frameBytes f) = decodeFrame f := by
  rw [decode, (frameOfBytes_eq_ok_iff _ f).mpr rfl]
  rfl

/-- The two bytes that tell a frame's kind, read off its list of bytes. -/
theorem getElem_of_frameBytes_eq_cons {f : Frame} {b0 b1 : Byte} {rest : List Byte}
    (h : frameBytes f = b0 :: b1 :: rest) : f[0] = b0 ∧ f[1] = b1 := by
  have first : (frameBytes f)[0]? = some b0 := by rw [h]; rfl
  have second : (frameBytes f)[1]? = some b1 := by rw [h]; rfl
  simpa [frameBytes] using And.intro first second

/-- A frame whose first two bytes are known, as the list of its bytes. -/
theorem frameBytes_eq_cons {f : Frame} {b0 b1 : Byte} (h0 : f[0] = b0) (h1 : f[1] = b1) :
    frameBytes f = [b0, b1, f[2], f[3], f[4], f[5], f[6], f[7], f[8]] := by
  subst h0 h1
  obtain ⟨⟨bytes⟩, nine⟩ := f
  match bytes, nine with
  | [_, _, _, _, _, _, _, _, _], _ => rfl

/-! ### The command ROM (R56) -/

/-- Settles O5: the four BUILD results are computed, and the 72-bit values are cut into the same bytes. -/
theorem romHoldsTheFourFrames : Obligations.RomHoldsTheFourFrames :=
  ⟨rfl, rfl, rfl, rfl, by decide, by decide, by decide, by decide, by decide, by decide, by decide, by decide⟩

/-- The row of the table that is the ROM's frame of a selector. -/
def romRow : Op → Instr
  | .read => .frameRead
  | .abcOff => .frameAbcOff
  | .abcOn => .frameAbcOn
  | .range => .frameRange2000

theorem romRow_port (o : Op) : (romRow o).port = .link := by
  cases o <;> rfl

theorem encode_romRow (o : Op) : encode (romRow o) = frameBytes (frameOf Config.hw o) := by
  cases o <;> decide

theorem decodeFrame_frameOf (o : Op) : decodeFrame (frameOf Config.hw o) = .ok (romRow o) := by
  cases o <;> exact decodeFrame_rom _

/-- Every frame of the ROM is a command frame: 0xFF, then 0x01. -/
theorem frameOf_head (o : Op) : (frameOf Config.hw o)[0] = 0xFF ∧ (frameOf Config.hw o)[1] = 0x01 := by
  cases o <;> exact ⟨rfl, rfl⟩

/-! ### The decoder on one frame of each kind -/

/-- Behind the ROM's four frames only bytes 0 and 1 decide. -/
theorem decodeFrame_of_ne_frameOf {f : Frame} (notRom : ∀ o, f ≠ frameOf Config.hw o) :
    decodeFrame f =
      if f[0] ≠ 0xFF then .error .badStartByte
      else if f[1] = 0x01 then .ok (.cfGeneric f[2] f[3] f[4] f[5] f[6] f[7] f[8])
      else if f[1] = 0x85 then .ok (.rfCo2Reading f[2] f[3] f[4] f[5] f[6] f[7] f[8])
      else .error .unknownCode := by
  obtain ⟨-, -, -, -, read, abcOff, abcOn, range, -⟩ := romHoldsTheFourFrames
  rw [decodeFrame, ← read, ← abcOff, ← abcOn, ← range, if_neg (notRom _), if_neg (notRom _), if_neg (notRom _),
    if_neg (notRom _)]

theorem decodeFrame_badStart {f : Frame} (h0 : f[0] ≠ 0xFF) : decodeFrame f = .error .badStartByte := by
  have notRom (o : Op) : f ≠ frameOf Config.hw o := fun rom => h0 (rom ▸ (frameOf_head o).1)
  rw [decodeFrame_of_ne_frameOf notRom, if_pos h0]

theorem decodeFrame_command {f : Frame} (notRom : ∀ o, f ≠ frameOf Config.hw o) (h0 : f[0] = 0xFF)
    (h1 : f[1] = 0x01) : decodeFrame f = .ok (.cfGeneric f[2] f[3] f[4] f[5] f[6] f[7] f[8]) := by
  rw [decodeFrame_of_ne_frameOf notRom, if_neg (not_not_intro h0), if_pos h1]

/-- With another code than a command frame's the frame is none of the ROM's. -/
theorem ne_frameOf_of_code_ne {f : Frame} (h1 : f[1] ≠ 0x01) (o : Op) : f ≠ frameOf Config.hw o :=
  fun rom => h1 (rom ▸ (frameOf_head o).2)

theorem decodeFrame_reading {f : Frame} (h0 : f[0] = 0xFF) (h1 : f[1] = 0x85) :
    decodeFrame f = .ok (.rfCo2Reading f[2] f[3] f[4] f[5] f[6] f[7] f[8]) := by
  have notCommand : f[1] ≠ 0x01 := by rw [h1]; decide
  rw [decodeFrame_of_ne_frameOf (ne_frameOf_of_code_ne notCommand), if_neg (not_not_intro h0), if_neg notCommand,
    if_pos h1]

theorem decodeFrame_unknown {f : Frame} (h0 : f[0] = 0xFF) (h1 : f[1] ≠ 0x01) (h85 : f[1] ≠ 0x85) :
    decodeFrame f = .error .unknownCode := by
  rw [decodeFrame_of_ne_frameOf (ne_frameOf_of_code_ne h1), if_neg (not_not_intro h0), if_neg h1, if_neg h85]

/-- A CF_GENERIC term that passes `Instr.notRomFrame` has no frame of the ROM: each of its four disjuncts is one. -/
theorem cfGeneric_ne_frameOf {o p0 p1 p2 p3 p4 k : Byte} (h : (Instr.cfGeneric o p0 p1 p2 p3 p4 k).notRomFrame = true)
    (op : Op) : #v[0xFF, 0x01, o, p0, p1, p2, p3, p4, k] ≠ frameOf Config.hw op := by
  intro rom
  obtain ⟨-, -, -, -, read, abcOff, abcOn, range, -⟩ := romHoldsTheFourFrames
  cases op <;> simp_all [Instr.notRomFrame]

/-- Whatever a frame decodes to is a link row that the frame encodes. -/
theorem encode_of_decodeFrame {f : Frame} {i : Instr} (h : decodeFrame f = .ok i) :
    i.port = .link ∧ encode i = frameBytes f := by
  by_cases rom : ∃ o, f = frameOf Config.hw o
  · obtain ⟨o, rfl⟩ := rom
    obtain rfl : romRow o = i := Except.ok.inj ((decodeFrame_frameOf o).symm.trans h)
    exact ⟨romRow_port o, encode_romRow o⟩
  · rw [decodeFrame_of_ne_frameOf (not_exists.mp rom)] at h
    split_ifs at h with h0 h1 h85 <;> cases h
    · exact ⟨rfl, (frameBytes_eq_cons (not_not.mp h0) h1).symm⟩
    · exact ⟨rfl, (frameBytes_eq_cons (not_not.mp h0) h85).symm⟩

end Sys2Proof.Machine
end

section
/-!
The decoder and the encoder against each other (spec/30_encoding.md R50 to R58).
-/

namespace Sys2Proof.Machine

/-- Settles O12, row by row: a code decodes by computation, a ROM frame to its own row, and a general pattern by its
first two bytes once it is known to be none of the ROM's frames. -/
theorem decodeOfEncodeIsTheInstruction : Obligations.DecodeOfEncodeIsTheInstruction := by
  intro i wf
  have rom (o : Op) : decode .link (encode (romRow o)) = .ok (romRow o) := by
    rw [encode_romRow, decode_link_frameBytes, decodeFrame_frameOf]
  cases i with
  | nop | pollCo2 | setAbcOff | setAbcOn | setRange2000 | clearErrors | humFail | reserved7 => rfl
  | stOk | stIncompleteResponse | stBadStartByte | stUnexpectedResponseCode | stChecksumMismatch => rfl
  | frameRead => exact rom .read
  | frameAbcOff => exact rom .abcOff
  | frameAbcOn => exact rom .abcOn
  | frameRange2000 => exact rom .range
  | cfGeneric o p0 p1 p2 p3 p4 k =>
    obtain ⟨-, notRom⟩ := Bool.and_eq_true_iff.mp wf
    exact (decode_link_frameBytes _).trans (decodeFrame_command (cfGeneric_ne_frameOf notRom) rfl rfl)
  | rfCo2Reading r2 r3 h l r6 r7 k =>
    exact (decode_link_frameBytes #v[0xFF, 0x85, r2, r3, h, l, r6, r7, k]).trans (decodeFrame_reading rfl rfl)

/-- Settles O13, port by port: bytes that hold a code or a frame are that code's or frame's only encoding. -/
theorem decodedBytesAreTheEncoding : Obligations.DecodedBytesAreTheEncoding := by
  intro p bytes i decoded
  cases p with
  | command =>
    cases read : codeOfBytes bytes with
    | error e => simp [decode, read, Except.map] at decoded
    | ok c =>
      obtain rfl : decodeCommand c = i := by simpa [decode, read, Except.map] using decoded
      obtain ⟨port, bits⟩ := encode_decodeCommand c
      exact ⟨port.symm, bits.trans ((codeOfBytes_eq_ok_iff bytes c).mp read).symm⟩
  | outcome =>
    cases read : codeOfBytes bytes with
    | error e => simp [decode, read, Except.bind] at decoded
    | ok c =>
      obtain ⟨port, bits⟩ := encode_of_decodeStatus (c := c) (by simpa [decode, read, Except.bind] using decoded)
      exact ⟨port.symm, bits.trans ((codeOfBytes_eq_ok_iff bytes c).mp read).symm⟩
  | link =>
    cases read : frameOfBytes bytes with
    | error e => simp [decode, read, Except.bind] at decoded
    | ok f =>
      obtain ⟨port, bits⟩ := encode_of_decodeFrame (f := f) (by simpa [decode, read, Except.bind] using decoded)
      exact ⟨port.symm, bits.trans ((frameOfBytes_eq_ok_iff bytes f).mp read)⟩

/-- Every frame that starts as a command frame or a reading decodes, whatever its checksum byte (log entry 9). -/
theorem exists_decodeFrame {f : Frame} (h0 : f[0] = 0xFF) (h1 : f[1] = 0x01 ∨ f[1] = 0x85) :
    ∃ i, decodeFrame f = .ok i := by
  by_cases rom : ∃ o, f = frameOf Config.hw o
  · obtain ⟨o, rfl⟩ := rom
    exact ⟨_, decodeFrame_frameOf o⟩
  · obtain h1 | h85 := h1
    · exact ⟨_, decodeFrame_command (not_exists.mp rom) h0 h1⟩
    · exact ⟨_, decodeFrame_reading h0 h85⟩

/-- Settles O15: the equations of the decoder's parts, one per kind of frame, length and code. -/
theorem decoderRefusesExactlyTheRest : Obligations.DecoderRefusesExactlyTheRest := by
  refine ⟨fun f => ?frame, fun bytes length => ?linkLength, fun bytes length => ?codeLength, fun b => ?command,
    fun b => ?outcome⟩
  case frame =>
    rw [decode_link_frameBytes]
    exact ⟨decodeFrame_badStart, decodeFrame_unknown, exists_decodeFrame⟩
  case linkLength => rw [decode, frameOfBytes_of_length_ne_nine length]; rfl
  case codeLength =>
    rw [decode, decode, codeOfBytes_of_length_ne_one length]
    exact ⟨rfl, rfl⟩
  case command =>
    constructor <;> intro h
    · exact ⟨decodeCommand (b.setWidth 3), by rw [decode, codeOfBytes_of_lt h]; rfl⟩
    · rw [decode, codeOfBytes_of_ge h]; rfl
  case outcome =>
    have read (h : b.toNat < 8) : decode .outcome [b] = decodeStatus (b.setWidth 3) := by
      rw [decode, codeOfBytes_of_lt h]; rfl
    have value (h : b.toNat < 8) : (b.setWidth 3).toNat = b.toNat := by
      rw [BitVec.toNat_setWidth, Nat.mod_eq_of_lt h]
    refine ⟨fun h => ?_, fun h h8 => ?_, fun h => ?_⟩
    · rw [read (by omega)]
      exact decodeStatus_of_lt (by rwa [value (by omega)])
    · rw [read h8]
      exact decodeStatus_of_ge (by rwa [value h8])
    · rw [decode, codeOfBytes_of_ge h]; rfl

/-- Settles O14: each word is cut into its bytes and decoded by computation. -/
theorem wordsOfTheTableDecode : Obligations.WordsOfTheTableDecode :=
  ⟨rfl, rfl, rfl, rfl, by decide, by decide, by decide, by decide, rfl⟩

end Sys2Proof.Machine
end

section
/-!
The outcome of VALIDATE and its code (spec/30_encoding.md R54; spec/41_frame_parser.md R80 to R86).
-/

namespace Sys2Proof.Machine

/-! ### Which bytes VALIDATE accepts -/

/-- CHKOK holds exactly when bytes 1 to 8 sum to a multiple of 256 (spec/40_checksum.md R74). -/
theorem chkOk_iff_sum (f : Frame) :
    chkOk f = true ↔
      (f[1].toNat + f[2].toNat + f[3].toNat + f[4].toNat + f[5].toNat + f[6].toNat + f[7].toNat + f[8].toNat) % 256
        = 0 := by
  have k := f[8].isLt
  rw [chkOk, beq_iff_eq, ← BitVec.toNat_inj, frameChk, chk, sum7, BitVec.toNat_ofNat, BitVec.toNat_ofNat]
  omega

/-- The five conditions under which VALIDATE accepts (R85, R86). -/
theorem validate_eq_ok_iff (c : Config) (n : Nat) (b : Frame) (v : Conc) :
    validate c n b = .ok v ↔
      9 ≤ n ∧ b[0] = c.start ∧ b[1] = c.respCode ∧ chkOk b = true ∧ concOf c b = v := by
  unfold validate
  split_ifs with short start code sum <;> simp_all

/-- A whole frame of another code than a reading's is refused by its code (R83). -/
theorem validate_unexpected {c : Config} {n : Nat} {b : Frame} (whole : 9 ≤ n) (start : b[0] = c.start)
    (code : b[1] ≠ c.respCode) : validate c n b = .unexpectedResponseCode := by
  rw [validate, if_neg (by omega), if_neg (not_not_intro start), if_pos code]

/-- Two bytes always fit in the 16 bits of a concentration (R55). -/
theorem concOf_toNat (c : Config) (f : Frame) :
    (concOf c f).toNat = 256 * f[c.concHi].toNat + f[c.concLo].toNat := by
  have hi := f[c.concHi].isLt
  have lo := f[c.concLo].isLt
  rw [concOf, BitVec.toNat_ofNat, Nat.mod_eq_of_lt (by omega)]

/-- Settles O7: VALIDATE's five conditions at this hardware's values, with CHKOK as a sum and the concentration as a
number. -/
theorem validReadingsAreAccepted : Obligations.ValidReadingsAreAccepted := by
  intro b v
  have conc : concOf Config.hw b = v ↔ v.toNat = 256 * b[4].toNat + b[5].toNat := by
    rw [← BitVec.toNat_inj, concOf_toNat, eq_comm]
    rfl
  rw [validate_eq_ok_iff, chkOk_iff_sum, conc]
  exact and_iff_right (Nat.le_refl 9)

/-! ### The code of an outcome -/

theorem Reading.status_eq_zero_iff (r : Reading) : r.status = 0 ↔ ∃ c, r = .ok c := by
  cases r <;> simp [Reading.status]

theorem Reading.conc_of_status_ne_zero {r : Reading} (failed : r.status ≠ 0) : r.conc = 0 := by
  cases r with
  | ok => exact absurd rfl failed
  | _ => rfl

/-- Code and value together tell all outcomes apart. -/
theorem Reading.eq_of_status_eq_of_conc_eq {r r' : Reading} (status : r.status = r'.status) (conc : r.conc = r'.conc) :
    r = r' := by
  cases r <;> cases r' <;> simp_all [Reading.status, Reading.conc]

theorem decodeStatus_status (r : Reading) : decodeStatus r.status = .ok r.row := by
  cases r <;> rfl

/-- Outcomes with one code are one row. -/
theorem Reading.row_eq_of_status_eq {r r' : Reading} (status : r.status = r'.status) : r.row = r'.row :=
  Except.ok.inj (by rw [← decodeStatus_status, ← decodeStatus_status, status])

/-- Settles O9: the table of R54, outcome by outcome. -/
theorem statusCodesDistinguishOutcomes : Obligations.StatusCodesDistinguishOutcomes := by
  intro r
  refine ⟨?atMostFour, ?incomplete, ?badStart, ?unexpected, ?mismatch, ?value, r.status_eq_zero_iff,
    Reading.conc_of_status_ne_zero, fun r' => Reading.eq_of_status_eq_of_conc_eq, decodeStatus_status r⟩
  case value => rintro c rfl; rfl
  all_goals cases r <;> simp [Reading.status]

end Sys2Proof.Machine
end

section
/-!
The rows of the table where they stand and elsewhere (spec/30_encoding.md R51 to R56; spec/43_request_response_fsm.md
R101, R104, R107): every link row is `State.onLink` of the frame it encodes, every status row `State.onStatus` of its
code.
-/

namespace Sys2Proof.Machine

/-! ### The meaning of a row, by its port -/

theorem exec_link {i : Instr} (link : i.port = .link) :
    ∃ f, frameBytes f = encode i ∧ ∀ s, exec i s = .next (s.onLink f) := by
  cases i with
  | frameRead | frameAbcOff | frameAbcOn | frameRange2000 | cfGeneric | rfCo2Reading =>
    exact ⟨_, rfl, fun _ => rfl⟩
  | _ => cases link

theorem exec_romRow (o : Op) (s : State) : exec (romRow o) s = .next (s.onLink (frameOf Config.hw o)) := by
  obtain ⟨f, bytes, run⟩ := exec_link (romRow_port o)
  rw [run, frameBytes_inj.mp (bytes.trans (encode_romRow o))]

/-- Every row of the outcome port is some outcome's row (R54). -/
theorem exists_row_eq {i : Instr} (outcome : i.port = .outcome) : ∃ r : Reading, r.row = i := by
  cases i with
  | stOk => exact ⟨.ok 0, rfl⟩
  | stIncompleteResponse => exact ⟨.incompleteResponse, rfl⟩
  | stBadStartByte => exact ⟨.badStartByte, rfl⟩
  | stUnexpectedResponseCode => exact ⟨.unexpectedResponseCode, rfl⟩
  | stChecksumMismatch => exact ⟨.checksumMismatch, rfl⟩
  | _ => cases outcome

theorem exec_row (r : Reading) (s : State) : exec r.row s = .next (s.onStatus r.status) := by
  cases r <;> rfl

/-! ### A row at its place -/

theorem State.onLink_of_send {s : State} {f : Frame} (send : s.fsm = .send) (frame : frameOf Config.hw s.op = f) :
    s.onLink f = s.sendStep := by
  simp only [State.onLink, send, frame, if_pos]

theorem State.onLink_of_recv {s : State} {f : Frame} (recv : s.fsm = .recv) (whole : s.rxCnt = 9)
    (frame : s.rxBuf = f) : s.onLink f = s.complete := by
  simp only [State.onLink, recv, whole, frame, and_self, if_pos]

theorem State.onStatus_of_rspValid {s : State} (last : s.rspValid = true) :
    s.onStatus s.outcome.status = s.complete := by
  simp [State.onStatus, last]

/-- Settles O29: each SET command is `State.acceptSend` of its selector. -/
theorem setCommandsStartSending : Obligations.SetCommandsStartSending := by
  intro s idle
  have accept (o : Op) : Host.Outcome.next (φ := Fault) (ρ := Refusal) (s.acceptSend o .send)
      = .next { s with op := o, txIdx := 0, fsm := .send } := by rw [s.acceptSend_idle o .send idle]
  refine ⟨accept .abcOff, accept .abcOn, accept .range, fun b => ?_⟩
  cases b with
  | false => exact accept .abcOff
  | true => exact accept .abcOn

/-- Settles O34: the row is the send step of the selected frame, whose bytes are the row's encoding. -/
theorem romRowsHandOverTheirBytes : Obligations.RomRowsHandOverTheirBytes := by
  intro s o row b pair send op byte ready
  subst op
  obtain rfl : row = romRow s.op := by
    simp only [List.mem_cons, List.not_mem_nil, Prod.mk.injEq, or_false] at pair
    obtain ⟨op, rfl⟩ | ⟨op, rfl⟩ | ⟨op, rfl⟩ | ⟨op, rfl⟩ := pair <;> rw [op] <;> rfl
  rw [encode_romRow, frameBytes, Vector.getElem?_toList] at byte
  obtain ⟨more, rfl⟩ := Vector.getElem?_eq_some_iff.mp byte
  have valid : s.txValid = true := s.txValid_iff.mpr ⟨send, more⟩
  refine ⟨valid, State.txData_of_txValid valid more, ?_⟩
  rw [exec_romRow, State.onLink_of_send send rfl, s.sendStep_byte more ready]

/-- The rows of format CF are link rows whose first two bytes are a command frame's (R51, R56). -/
theorem encode_commandFrame {i : Instr}
    (row : i ∈ [Instr.frameRead, .frameAbcOff, .frameAbcOn, .frameRange2000]
      ∨ ∃ o p0 p1 p2 p3 p4 k, i = .cfGeneric o p0 p1 p2 p3 p4 k) :
    i.port = .link ∧ ∃ rest, encode i = 0xFF :: 0x01 :: rest := by
  obtain rom | ⟨o, p0, p1, p2, p3, p4, k, rfl⟩ := row
  · simp only [List.mem_cons, List.not_mem_nil, or_false] at rom
    obtain rfl | rfl | rfl | rfl := rom <;> exact ⟨rfl, _, rfl⟩
  · exact ⟨rfl, _, rfl⟩

/-- Settles O36: the row completes the poll, and VALIDATE stops at the code 0x01, before the checksum. -/
theorem receivedCommandFramesAreUnexpected : Obligations.ReceivedCommandFramesAreUnexpected := by
  intro s i row recv whole bytes
  obtain ⟨link, rest, head⟩ := encode_commandFrame row
  obtain ⟨start, code⟩ := getElem_of_frameBytes_eq_cons (bytes.trans head)
  obtain ⟨f, encoded, run⟩ := exec_link link
  have frame : s.rxBuf = f := frameBytes_inj.mp (bytes.trans encoded.symm)
  have notReading : s.rxBuf[1] ≠ Config.hw.respCode := by rw [code]; decide
  have unexpected : s.outcome = .unexpectedResponseCode := validate_unexpected (by simp [whole]) start notReading
  rw [run, State.onLink_of_recv recv whole frame, State.complete, unexpected]
  rfl

/-- Settles O23: the step is the completion, and so is the status row of the outcome on the port. -/
theorem completionRunsTheStatusRow : Obligations.CompletionRunsTheStatusRow := by
  intro s run last
  refine ⟨if_pos last, if_pos last, ?_⟩
  rw [step_complete s run last, exec_row, State.onStatus_of_rspValid last]
  rfl

/-! ### A row elsewhere -/

/-- Settles O38: a link row acts only on the frame being sent or received whole, a status row only on the outcome. -/
theorem rowsElsewhereChangeNothing : Obligations.RowsElsewhereChangeNothing := by
  constructor
  · intro i s link elsewhere
    obtain ⟨f, encoded, run⟩ := exec_link link
    simp only [← encoded, ne_eq, frameBytes_inj] at elsewhere
    rw [run]
    obtain h | ⟨send, frame, -⟩ | ⟨recv, whole, frame, -⟩ := s.onLink_cases f
    · rw [h]
    · simp [send, frame] at elsewhere
    · simp [recv, whole, frame] at elsewhere
  · intro i s outcome elsewhere
    obtain ⟨r, rfl⟩ := exists_row_eq outcome
    rw [exec_row]
    obtain ⟨h, -⟩ | ⟨last, status, -⟩ := s.onStatus_cases r.status
    · rw [h]
    · obtain notLast | other := elsewhere
      · simp [last] at notLast
      · exact absurd (Reading.row_eq_of_status_eq status) other

end Sys2Proof.Machine
end

section
/-!
The outcome event (spec/30_encoding.md R61; spec/43_request_response_fsm.md R111).
-/

namespace Sys2Proof.Machine

/-- Outside the last cycle of RECV no edge records an outcome. -/
theorem Edge.observed_of_not_rspValid {s u : State} (e : Edge s u) (notLast : s.rspValid = false) :
    ∃ evs, u.observed = s.observed ++ evs ∧ ∀ st c, Event.rsp st c ∉ evs := by
  cases e with
  | reset | idle | poll | set | clearErrors | humFail | sendWait | receiveWait =>
    exact ⟨[], (List.append_nil _).symm, by simp⟩
  | discard | sendByte | flush | receiveByte => exact ⟨[_], rfl, by simp⟩
  | commitOk _ _ last | commitError _ last => simp [last] at notLast

/-- Settles O49: the last cycle of RECV is the completion, which records the outcome once and leaves the block idle; no
other edge records one. -/
theorem oneOutcomeEventPerPoll : Obligations.OneOutcomeEventPerPoll := by
  intro s t run stepped
  constructor
  · intro last
    obtain rfl : s.complete.endCycle = t := Host.Outcome.next.inj ((step_complete s run last).symm.trans stepped)
    have idle : s.complete.endCycle.fsm = .idle := s.complete_fsm
    obtain ⟨-, noOutcome, -, -⟩ := State.outputs_of_idle idle
    refine ⟨?_, idle, noOutcome⟩
    rw [State.endCycle_observed, s.complete_observed, State.outputs_rspStatus, State.outputs_rspConc, if_pos last,
      if_pos last]
  · intro notLast
    obtain ⟨u, e, rfl⟩ := (step_eq_next_iff s t).mp stepped
    exact e.observed_of_not_rspValid notLast

end Sys2Proof.Machine
end

section
/-!
The checksum as negation, and the corruption it detects (spec/40_checksum.md R70 to R75): CHK is the negation of SUM7 in
the group of bytes, so CHKOK says that the bytes after byte 0 sum to zero in that group.
-/

namespace Sys2Proof.Machine

/-! ### SUM7 and CHK in the group of bytes -/

/-- An adder that drops its carry gives the sum modulo 256 (R70). -/
theorem sum7_eq_add (b1 b2 b3 b4 b5 b6 b7 : Byte) :
    sum7 b1 b2 b3 b4 b5 b6 b7 = b1 + b2 + b3 + b4 + b5 + b6 + b7 := by
  simp only [sum7, BitVec.ofNat_add, BitVec.ofNat_toNat, BitVec.setWidth_eq]

theorem chk_toNat (b1 b2 b3 b4 b5 b6 b7 : Byte) :
    (chk b1 b2 b3 b4 b5 b6 b7).toNat = (256 - (sum7 b1 b2 b3 b4 b5 b6 b7).toNat) % 256 :=
  BitVec.toNat_ofNat _ _

theorem chk_eq_neg_sum7 (b1 b2 b3 b4 b5 b6 b7 : Byte) :
    chk b1 b2 b3 b4 b5 b6 b7 = -sum7 b1 b2 b3 b4 b5 b6 b7 :=
  BitVec.eq_of_toNat_eq (by rw [chk_toNat, BitVec.toNat_neg])

/-- Settles O1: CHK is the negation of SUM7, and negation is complement plus one. -/
theorem checksumIsNegatedByteSum : Obligations.ChecksumIsNegatedByteSum :=
  fun b1 b2 b3 b4 b5 b6 b7 =>
    ⟨BitVec.toNat_ofNat _ _, sum7_eq_add b1 b2 b3 b4 b5 b6 b7, chk_toNat b1 b2 b3 b4 b5 b6 b7,
      (chk_eq_neg_sum7 b1 b2 b3 b4 b5 b6 b7).trans (BitVec.neg_eq_not_add _)⟩

/-! ### CHKOK -/

/-- BUILD ends its frame with the checksum that CHKOK recomputes (R74). -/
theorem chkOk_build (c : Config) (o p0 p1 p2 p3 p4 : Byte) : chkOk (build c o p0 p1 p2 p3 p4) = true :=
  beq_self_eq_true (chk c.cmdB1 o p0 p1 p2 p3 p4)

/-- Settles O3: the sum form of CHKOK, and BUILD's own checksum. -/
theorem intactFramesSumToZero : Obligations.IntactFramesSumToZero :=
  ⟨chkOk_iff_sum, chkOk_build⟩

/-- The bytes that the checksum covers: all but byte 0 (R75 (d)). -/
def coveredBytes (f : Frame) : List Byte :=
  f.toList.drop 1

theorem coveredBytes_eq (f : Frame) : coveredBytes f = [f[1], f[2], f[3], f[4], f[5], f[6], f[7], f[8]] := by
  refine List.ext_getElem (by simp [coveredBytes]) fun i _ h => ?_
  simp only [List.length_cons, List.length_nil] at h
  interval_cases i <;> simp [coveredBytes]

theorem coveredBytes_set_zero (f : Frame) (b : Byte) : coveredBytes (f.set 0 b) = coveredBytes f := by
  rw [coveredBytes, coveredBytes, Vector.toList_set, List.drop_set, if_pos Nat.one_pos]

theorem coveredBytes_set_succ (f : Frame) (j : Nat) (b : Byte) (h : j + 1 < 9) :
    coveredBytes (f.set (j + 1) b h) = (coveredBytes f).set j b := by
  rw [coveredBytes, coveredBytes, Vector.toList_set, List.drop_set, if_neg (by omega), Nat.add_sub_cancel]

/-- CHKOK as a sum in the group of bytes (R74). -/
theorem chkOk_iff_sum_coveredBytes (f : Frame) : chkOk f = true ↔ (coveredBytes f).sum = 0 := by
  rw [chkOk, beq_iff_eq, frameChk, chk_eq_neg_sum7, sum7_eq_add, eq_neg_iff_add_eq_zero, add_comm, coveredBytes_eq]
  simp [add_assoc]

/-- Overwriting an element changes a sum that was zero, unless the element stays as it was. -/
theorem sum_set_eq_zero_iff {l : List Byte} {j : Nat} (h : j < l.length) (sum : l.sum = 0) (b : Byte) :
    (l.set j b).sum = 0 ↔ b = l[j] := by
  rw [List.sum_set', sum, dif_pos h, zero_add, neg_add_eq_zero, eq_comm]

/-- Settles O4: one overwritten byte moves the covered sum off zero; byte 0 is no part of it. -/
theorem singleByteCorruptionIsDetected : Obligations.SingleByteCorruptionIsDetected := by
  constructor
  · rintro f ⟨i, lt⟩ b intact pos differs
    obtain ⟨j, rfl⟩ := Nat.exists_eq_add_of_le' pos
    have covered : j < (coveredBytes f).length := by simp [coveredBytes_eq]; omega
    rw [chkOk_iff_sum_coveredBytes] at intact
    rw [← Bool.not_eq_true, chkOk_iff_sum_coveredBytes, coveredBytes_set_succ, sum_set_eq_zero_iff covered intact]
    simpa [coveredBytes] using differs
  · intro f b
    rw [Bool.eq_iff_iff, chkOk_iff_sum_coveredBytes, chkOk_iff_sum_coveredBytes, coveredBytes_set_zero]

end Sys2Proof.Machine
end

section
/-!
VALIDATE case by case, and the completion of a poll whose read times out or brings a reading (spec/41_frame_parser.md
R80 to R87; spec/43_request_response_fsm.md R107; spec/44_controller_ops.md R130, R131).
-/

namespace Sys2Proof.Machine

/-! ### VALIDATE, one equation per outcome -/

section
variable {c : Config} {n : Nat} {b : Frame}

theorem validate_incomplete (short : n < 9) : validate c n b = .incompleteResponse :=
  if_pos short

theorem validate_badStart (whole : 9 ≤ n) (start : b[0] ≠ c.start) : validate c n b = .badStartByte := by
  rw [validate, if_neg (Nat.not_lt.mpr whole), if_pos start]

theorem validate_mismatch (whole : 9 ≤ n) (start : b[0] = c.start) (code : b[1] = c.respCode)
    (sum : chkOk b = false) : validate c n b = .checksumMismatch := by
  rw [validate, if_neg (Nat.not_lt.mpr whole), if_neg (not_not_intro start), if_neg (not_not_intro code),
    if_pos (by rw [sum]; rfl)]

theorem validate_ok (whole : 9 ≤ n) (start : b[0] = c.start) (code : b[1] = c.respCode) (sum : chkOk b = true) :
    validate c n b = .ok (concOf c b) :=
  (validate_eq_ok_iff c n b _).mpr ⟨whole, start, code, sum, rfl⟩

end

/-- The guards of the five outcomes leave no case out (R86). -/
theorem validate_cases (c : Config) (n : Nat) (b : Frame) :
    (n < 9 ∧ validate c n b = .incompleteResponse)
    ∨ (9 ≤ n ∧ b[0] ≠ c.start ∧ validate c n b = .badStartByte)
    ∨ (9 ≤ n ∧ b[0] = c.start ∧ b[1] ≠ c.respCode ∧ validate c n b = .unexpectedResponseCode)
    ∨ (9 ≤ n ∧ b[0] = c.start ∧ b[1] = c.respCode ∧ chkOk b = false ∧ validate c n b = .checksumMismatch)
    ∨ (9 ≤ n ∧ b[0] = c.start ∧ b[1] = c.respCode ∧ chkOk b = true ∧ validate c n b = .ok (concOf c b)) := by
  obtain short | whole := Nat.lt_or_ge n 9
  · exact .inl ⟨short, validate_incomplete short⟩
  by_cases start : b[0] = c.start
  case neg => exact .inr (.inl ⟨whole, start, validate_badStart whole start⟩)
  by_cases code : b[1] = c.respCode
  case neg => exact .inr (.inr (.inl ⟨whole, start, code, validate_unexpected whole start code⟩))
  cases sum : chkOk b with
  | false => exact .inr (.inr (.inr (.inl ⟨whole, start, code, rfl, validate_mismatch whole start code sum⟩)))
  | true => exact .inr (.inr (.inr (.inr ⟨whole, start, code, rfl, validate_ok whole start code sum⟩)))

theorem concOf_eq_iff (c : Config) (f : Frame) (v : Conc) :
    concOf c f = v ↔ v.toNat = 256 * f[c.concHi].toNat + f[c.concLo].toNat := by
  rw [← BitVec.toNat_inj, concOf_toNat, eq_comm]

/-- Settles O6: each of the five cases has one outcome and meets the condition of no other. -/
theorem validateFollowsTheFourChecks : Obligations.ValidateFollowsTheFourChecks := by
  refine ⟨rfl, rfl, rfl, rfl, fun c n b => ?_⟩
  simp only [validate_eq_ok_iff, concOf_eq_iff, implies_true, and_true]
  obtain ⟨short, result⟩ | ⟨whole, start, result⟩ | ⟨whole, start, code, result⟩ | ⟨whole, start, code, sum, result⟩
    | ⟨whole, start, code, sum, result⟩ := validate_cases c n b
  · simp [result, short]
  · simp [result, whole, start]
  · simp [result, whole, start, code]
  · simp [result, whole, start, code, sum]
  · simp [result, whole, start, code, sum]

/-! ### The bytes of a reading -/

/-- CHKOK of a reading compares its last byte with CHK of all of bytes 1 to 7 (R73, R87). -/
theorem chkOk_reading (r2 r3 h l r6 r7 k : Byte) :
    chkOk #v[0xFF, 0x85, r2, r3, h, l, r6, r7, k] = (k == chk 0x85 r2 r3 h l r6 r7) := rfl

theorem validate_reading_intact {r2 r3 h l r6 r7 k : Byte} (intact : k = chk 0x85 r2 r3 h l r6 r7) :
    validate Config.hw 9 #v[0xFF, 0x85, r2, r3, h, l, r6, r7, k] = .ok (BitVec.ofNat 16 (256 * h.toNat + l.toNat)) :=
  validate_ok (Nat.le_refl 9) rfl rfl (by rw [chkOk_reading, intact, beq_self_eq_true])

theorem validate_reading_corrupted {r2 r3 h l r6 r7 k : Byte} (corrupted : k ≠ chk 0x85 r2 r3 h l r6 r7) :
    validate Config.hw 9 #v[0xFF, 0x85, r2, r3, h, l, r6, r7, k] = .checksumMismatch :=
  validate_mismatch (Nat.le_refl 9) rfl rfl (by rw [chkOk_reading, beq_eq_false_iff_ne.mpr corrupted])

/-- Only the two concentration bytes enter the concentration (R55). -/
theorem concOf_congr {c : Config} {f g : Frame} (hi : f[c.concHi] = g[c.concHi]) (lo : f[c.concLo] = g[c.concLo]) :
    concOf c f = concOf c g := by
  rw [concOf, concOf, hi, lo]

/-- VALIDATE looks at bytes 0 and 1, at CHKOK and at the concentration. -/
theorem validate_congr {c : Config} {f g : Frame} (n : Nat) (start : f[0] = g[0]) (code : f[1] = g[1])
    (sum : chkOk f = chkOk g) (conc : concOf c f = concOf c g) : validate c n f = validate c n g := by
  rw [validate, validate, start, code, sum, conc]

/-- Settles O8: the middle bytes reach VALIDATE through CHKOK alone. -/
theorem middleBytesAreNotInterpreted : Obligations.MiddleBytesAreNotInterpreted :=
  ⟨fun _ _ _ _ _ _ _ => ⟨validate_reading_intact, validate_reading_corrupted⟩,
    fun n _ _ start code hi lo sum => validate_congr n start code sum (concOf_congr hi lo)⟩

/-! ### The completion of the poll -/

/-- Settles O26: a timeout ends RECV, so no byte is taken, and fewer than nine bytes are an incomplete response. -/
theorem timeoutWinsOverAnOfferedByte : Obligations.TimeoutWinsOverAnOfferedByte := by
  intro s recv run short timeout
  have last : s.rspValid = true := s.rspValid_iff.mpr ⟨recv, .inr timeout⟩
  have incomplete : s.outcome = .incompleteResponse := validate_incomplete short
  refine ⟨State.rxReady_of_rspValid last, ?_⟩
  rw [step_complete s run last, State.complete, incomplete]
  rfl

/-- Settles O37: the row completes the poll with the outcome that VALIDATE gives of its bytes. -/
theorem receivedReadingIsCommitted : Obligations.ReceivedReadingIsCommitted := by
  intro s r2 r3 h l r6 r7 k recv whole bytes
  have frame : s.rxBuf = #v[0xFF, 0x85, r2, r3, h, l, r6, r7, k] := frameBytes_inj.mp bytes
  have completed : exec (.rfCo2Reading r2 r3 h l r6 r7 k) s = .next (s.commit s.outcome) :=
    congrArg Host.Outcome.next (State.onLink_of_recv recv whole frame)
  have outcome : s.outcome = validate Config.hw 9 #v[0xFF, 0x85, r2, r3, h, l, r6, r7, k] := by
    rw [State.outcome, whole, frame]
    rfl
  rw [completed, outcome]
  constructor
  · intro intact
    rw [validate_reading_intact intact]
    rfl
  · intro corrupted
    rw [validate_reading_corrupted corrupted]
    rfl

end Sys2Proof.Machine
end

section
/-!
The moving-average filter (spec/42_moving_average.md R91 to R95): PUSH and AVERAGE in terms of the window alone, and the
one edge that pushes.
-/

namespace Sys2Proof.Machine

/-! ### PUSH -/

/-- Settles O10: the ring buffer pushes as the window does, and its length is `count`. -/
theorem pushKeepsTheLastSixValues : Obligations.PushKeepsTheLastSixValues := by
  intro r v
  refine ⟨r.push_window v, ?length, (r.push v).avgValid_iff.mpr (r.push_count_ne_zero v)⟩
  case length => rw [Regs.window_length, Regs.window_length, r.push_count v]

/-! ### AVERAGE -/

theorem Regs.window_eq_nil_iff (r : Regs) : r.window = [] ↔ r.count = 0 := by
  rw [← List.length_eq_zero_iff, Regs.window_length, Fin.val_eq_zero_iff]

/-- AVERAGE in terms of the window: its sum over the number of values present (R92). -/
theorem Regs.average_eq_mean (r : Regs) (exact : r.sum.toNat = windowSum r.window) (some : r.count ≠ 0) :
    r.average.toNat = windowSum r.window / r.window.length := by
  rw [r.average_toNat exact some, exact, Regs.window_length]

/-- A mean is never above a bound on the values, whether or not there are any. -/
theorem mean_le {w : List Conc} {m : Nat} (bound : ∀ v ∈ w, v.toNat ≤ m) : windowSum w / w.length ≤ m := by
  refine Nat.div_le_of_le_mul ?_
  calc windowSum w ≤ (w.map BitVec.toNat).length • m :=
        List.sum_le_card_nsmul _ m (List.forall_mem_map.mpr bound)
    _ = w.length * m := by rw [List.length_map, smul_eq_mul]

/-- Six values of 16 bits: the widest sum (R94). -/
theorem Regs.windowSum_window_le_widest (r : Regs) : windowSum r.window ≤ 393210 := by
  have bound := r.windowSum_window_le
  have six := r.count.isLt
  omega

/-- Settles O11: AVERAGE of a window with a value is its mean, PUSH keeps `sum` exact and leaves a value in the window,
and without a value AVERAGE is the old average by definition. -/
theorem averageIsTheTruncatedMean : Obligations.AverageIsTheTruncatedMean := by
  refine ⟨?mean, ?push, ?empty⟩
  case mean =>
    intro r exact values
    have mean := r.average_eq_mean exact (mt r.window_eq_nil_iff.mpr values)
    refine ⟨mean, fun m bound => ?_⟩
    rw [mean]
    exact mean_le bound
  case push =>
    intro r v exact
    have exact' := r.push_sum_toNat v exact
    exact ⟨exact', (r.push v).windowSum_window_le_widest, (r.push v).average_eq_mean exact' (r.push_count_ne_zero v)⟩
  case empty =>
    intro r empty
    exact if_pos (r.window_eq_nil_iff.mp empty)

/-! ### What reaches the filter -/

/-- Settles O45, edge by edge: of the edges without reset only the commit of an Ok outcome writes a register of the
filter (R95), and it leaves both counters alone. -/
theorem filterChangesOnlyByAnOkPoll : Obligations.FilterChangesOnlyByAnOkPoll := by
  intro s t run stepped
  obtain ⟨u, e, rfl⟩ := (step_eq_next_iff s t).mp stepped
  cases e with
  | reset rst => simp [rst] at run
  | commitOk c _ last ok =>
    exact .inr ⟨last, c, ok, s.toRegs.push_window c, s.commitOk_sum c, s.commitOk_avg c,
      s.toRegs.push_co2Err c, s.toRegs.push_humErr c⟩
  | _ => exact .inl ⟨rfl, rfl, rfl, rfl, rfl⟩

end Sys2Proof.Machine
end

section
/-!
The step as the row it decodes, and the transitions of the exchange's state machine (spec/43_request_response_fsm.md
R100 to R106, R115).
-/

namespace Sys2Proof.Machine

/-! ### The row at the port -/

/-- Without a reset the row that is fetched is run. -/
theorem step_of_fetch {s : State} {i : Instr} (run : s.pins.rst = false) (fetched : s.fetch = some i) :
    step s = thenEndCycle (exec i s) := by
  simp [step, run, fetched]

/-- The three bits of a command code, written as a byte, decode to the command they are (R53). -/
theorem decode_command_setWidth (c : BitVec 3) : decode .command [c.setWidth 8] = .ok (decodeCommand c) := by
  decide +revert

theorem State.fetch_idle {s : State} (idle : s.fsm = .idle) (valid : s.pins.cmdValid = true) :
    s.fetch = some (decodeCommand s.pins.cmdCode) := by
  simp [State.fetch, idle, valid]

theorem State.fetch_send {s : State} (send : s.fsm = .send) : s.fetch = some (romRow s.op) := by
  simp [State.fetch, send, decodeFrame_frameOf, Except.toOption]

theorem State.fetch_recv {s : State} {i : Instr} (recv : s.fsm = .recv) (whole : s.rxCnt = 9)
    (row : decodeFrame s.rxBuf = .ok i) : s.fetch = some i := by
  have last : s.rspValid = true := s.rspValid_iff.mpr ⟨recv, .inl whole⟩
  simp [State.fetch, recv, last, State.receivedRow, whole, row]

/-- Settles O22: at each of the three ports the decoded row is the row that is fetched. -/
theorem stepRunsTheDecodedInstruction : Obligations.StepRunsTheDecodedInstruction := by
  refine ⟨fun s i run => ⟨?command, ?sending, ?received⟩, fun t => rfl⟩
  case command =>
    intro idle valid decoded
    obtain rfl := Except.ok.inj ((decode_command_setWidth s.pins.cmdCode).symm.trans decoded)
    exact step_of_fetch run (State.fetch_idle idle valid)
  case sending =>
    intro send decoded
    rw [decode_link_frameBytes, decodeFrame_frameOf] at decoded
    obtain rfl := Except.ok.inj decoded
    exact step_of_fetch run (State.fetch_send send)
  case received =>
    intro recv whole decoded
    rw [decode_link_frameBytes] at decoded
    exact step_of_fetch run (State.fetch_recv recv whole decoded)

/-- Settles O28: POLL_CO2 is the acceptance of READ, with the DISCARD state as its target. -/
theorem pollCo2StartsAnExchange : Obligations.PollCo2StartsAnExchange :=
  fun s idle => congrArg Host.Outcome.next (s.acceptSend_idle .read .discard idle)

/-! ### The receive step and the flush -/

/-- An index register below nine is not nine. -/
theorem ne_nine_of_lt {x : BitVec 4} (more : x.toNat < 9) : x ≠ 9 := by
  rintro rfl
  exact absurd more (by decide)

theorem State.rspValid_of_more {s : State} (more : s.rxCnt.toNat < 9) (noTimeout : s.pins.rxTimeout = false) :
    s.rspValid = false := by
  refine Bool.eq_false_iff.mpr fun last => ?_
  obtain ⟨-, nine | timeout⟩ := s.rspValid_iff.mp last
  · exact ne_nine_of_lt more nine
  · simp [timeout] at noTimeout

/-- The edge of the RECV byte step, from the inputs that enable it (R106). -/
theorem Edge.receiveByte_of_offer {s : State} {b : Byte} {rest : List Byte} (recv : s.fsm = .recv)
    (run : s.pins.rst = false) (more : s.rxCnt.toNat < 9) (noTimeout : s.pins.rxTimeout = false)
    (offer : s.pins.rxOffer = true) (oldest : s.linkIn = b :: rest) :
    Edge s { s with
      linkIn := rest, rxBuf := s.rxBuf.set s.rxCnt.toNat b more, rxCnt := s.rxCnt + 1
      observed := s.observed ++ [.received b] } :=
  .receiveByte b rest run recv (State.rspValid_of_more more noTimeout) more
    (s.rxReady_iff.mpr ⟨recv, more, noTimeout⟩) (by simp [State.rxValid, offer, oldest]) oldest

/-- Settles O25: the step is the RECV byte step, then the end of the cycle. -/
theorem receiveStepStoresTheNextByte : Obligations.ReceiveStepStoresTheNextByte :=
  fun _ _ _ recv run more noTimeout offer oldest =>
    (Edge.receiveByte_of_offer recv run more noTimeout offer oldest).step_eq

theorem State.txEmpty_of_linkOut_nil {s : State} (report : s.pins.txReport = true) (transmitted : s.linkOut = []) :
    s.txEmpty = true := by
  simp [State.txEmpty, report, transmitted]

/-- The row of the selected frame ends its sending with the flush (R105). -/
theorem exec_romRow_flush {s : State} {o : Op} (send : s.fsm = .send) (op : s.op = o) (whole : s.txIdx = 9)
    (empty : s.txEmpty = true) :
    exec (romRow o) s = .next { s with
      fsm := if o = .read then .recv else .idle, observed := s.observed ++ [.flushed] } := by
  subst op
  rw [exec_romRow, State.onLink_of_send send rfl, s.sendStep_flush whole empty]

/-- Settles O35: the flush of the selected frame's row, for each of the four selectors. -/
theorem romRowsEndWithTheFlush : Obligations.RomRowsEndWithTheFlush := by
  intro s send whole report transmitted
  have flush {o : Op} (op : s.op = o) :=
    exec_romRow_flush send op whole (State.txEmpty_of_linkOut_nil report transmitted)
  exact ⟨by simp [send, whole], flush, flush, flush, flush⟩

/-! ### The state diagram -/

/-- The state diagram of R100 as a function: the FSM state after the coming clock edge. -/
def State.nextFsm (s : State) : Fsm :=
  if s.pins.rst then .idle
  else match s.fsm with
    | .idle =>
      if s.pins.cmdValid = true ∧ s.pins.cmdCode = 1 then .discard
      else if s.pins.cmdValid = true ∧ (s.pins.cmdCode = 2 ∨ s.pins.cmdCode = 3 ∨ s.pins.cmdCode = 4) then .send
      else .idle
    | .discard => .send
    | .send => if s.txIdx = 9 ∧ s.txEmpty = true then (if s.op = .read then .recv else .idle) else .send
    | .recv => if s.rspValid then .idle else .recv

section
variable {s : State}

theorem State.nextFsm_reset (rst : s.pins.rst = true) : s.nextFsm = .idle := by
  simp [State.nextFsm, rst]

theorem State.nextFsm_idle (run : s.pins.rst = false) (fsm : s.fsm = .idle) :
    s.nextFsm =
      if s.pins.cmdValid = true ∧ s.pins.cmdCode = 1 then .discard
      else if s.pins.cmdValid = true ∧ (s.pins.cmdCode = 2 ∨ s.pins.cmdCode = 3 ∨ s.pins.cmdCode = 4) then .send
      else .idle := by
  simp only [State.nextFsm, run, fsm, Bool.false_eq_true, if_false]

theorem State.nextFsm_discard (run : s.pins.rst = false) (fsm : s.fsm = .discard) : s.nextFsm = .send := by
  simp only [State.nextFsm, run, fsm, Bool.false_eq_true, if_false]

theorem State.nextFsm_send (run : s.pins.rst = false) (fsm : s.fsm = .send) :
    s.nextFsm = if s.txIdx = 9 ∧ s.txEmpty = true then (if s.op = .read then .recv else .idle) else .send := by
  simp only [State.nextFsm, run, fsm, Bool.false_eq_true, if_false]

theorem State.nextFsm_recv (run : s.pins.rst = false) (fsm : s.fsm = .recv) :
    s.nextFsm = if s.rspValid then .idle else .recv := by
  simp only [State.nextFsm, run, fsm, Bool.false_eq_true, if_false]

end

/-- Every edge goes where the diagram says. -/
theorem Edge.fsm_eq {s u : State} (e : Edge s u) : u.fsm = s.nextFsm := by
  cases e with
  | reset rst => exact (State.nextFsm_reset rst).symm
  | idle run fsm code =>
    rw [State.nextFsm_idle run fsm, fsm]
    cases valid : s.pins.cmdValid with
    | false => simp
    | true => obtain c | c := code valid <;> simp [c]
  | poll run fsm valid code | clearErrors run fsm valid code | humFail run fsm valid code =>
    simp [State.nextFsm_idle run fsm, fsm, valid, code]
  | set o run fsm valid code =>
    obtain ⟨c, -⟩ | ⟨c, -⟩ | ⟨c, -⟩ := code <;> simp [State.nextFsm_idle run fsm, valid, c]
  | discard run fsm => exact (State.nextFsm_discard run fsm).symm
  | sendWait run fsm _ noFlush => rw [State.nextFsm_send run fsm, if_neg noFlush, fsm]
  | sendByte run fsm more => rw [State.nextFsm_send run fsm, if_neg fun h => ne_nine_of_lt more h.1, fsm]
  | flush run fsm whole empty => simp [State.nextFsm_send run fsm, whole, empty]
  | receiveWait run fsm notLast | receiveByte _ _ run fsm notLast => simp [State.nextFsm_recv run fsm, notLast, fsm]
  | commitOk _ run last | commitError run last =>
    simp [State.nextFsm_recv run (State.fsm_of_rspValid last), last]

/-- Settles O42: a step goes where the diagram says, and out of each state the diagram's conditions exclude each
other. -/
theorem fsmTakesOnlyItsTransitions : Obligations.FsmTakesOnlyItsTransitions := by
  intro s t stepped
  obtain ⟨u, e, rfl⟩ := (step_eq_next_iff s t).mp stepped
  rw [State.endCycle_toRegs, e.fsm_eq]
  refine ⟨State.nextFsm_reset, fun run => ?_⟩
  cases fsm : s.fsm with
  | idle =>
    rw [State.nextFsm_idle run fsm]
    split_ifs with poll set
    · exact ⟨rfl, fun _ => iff_of_true rfl poll, fun _ => iff_of_false nofun (by simp [poll]), nofun, nofun, nofun⟩
    · exact ⟨rfl, fun _ => iff_of_false nofun poll, fun _ => iff_of_true rfl set, nofun, nofun, nofun⟩
    · exact ⟨rfl, fun _ => iff_of_false nofun poll, fun _ => iff_of_false nofun set, nofun, nofun, nofun⟩
  | discard =>
    rw [State.nextFsm_discard run fsm]
    exact ⟨rfl, nofun, nofun, nofun, nofun, nofun⟩
  | send =>
    rw [State.nextFsm_send run fsm]
    split_ifs with sent read
    · simp [Fsm.mayGo, sent, read]
    · simp [Fsm.mayGo, sent, read]
    · exact ⟨rfl, nofun, nofun, fun _ => iff_of_false nofun fun h => sent ⟨h.1, h.2.1⟩,
        fun _ => iff_of_false nofun fun h => sent ⟨h.1, h.2.1⟩, nofun⟩
  | recv =>
    have last : s.rspValid = true ↔ s.rxCnt = 9 ∨ s.pins.rxTimeout = true := by simp [s.rspValid_iff, fsm]
    rw [State.nextFsm_recv run fsm, ← last]
    split_ifs with ended <;> simp [Fsm.mayGo, ended]

end Sys2Proof.Machine
end

section
/-!
Whole exchanges under an always-ready transport (spec/43_request_response_fsm.md R102, R108 to R110, R113): one run per
phase of an exchange, joined into the run of a command.
-/

namespace Sys2Proof.Machine

/-! ### Runs and scripted inputs -/

/-- A run goes on from where its first part ends. -/
theorem runSteps_add {m : Nat} {s t : State} (first : runSteps m s = .next t) (n : Nat) :
    runSteps (m + n) s = runSteps n t := by
  induction m generalizing s with
  | zero => rw [Nat.zero_add, ← Host.Outcome.next.inj first]
  | succ m ih =>
    obtain ⟨u, e⟩ := exists_edge s
    rw [runSteps_next m s _ e.step_eq] at first
    rw [Nat.add_right_comm, runSteps_next _ s _ e.step_eq, ih first]

section
variable {s u : State} {x : Inputs} {rest : List Inputs}

theorem State.pins_eq_of_inputs (script : s.inputs = x :: rest) : s.pins = x := by
  rw [State.pins, script, List.headD_cons]

/-- The edge decides the registers and the record, the script the rest of the cycle. -/
theorem Edge.step_of_inputs (e : Edge s u) (script : s.inputs = x :: rest) :
    step s = .next { u with
      linkIn := u.linkIn ++ x.arrives, linkOut := u.linkOut.drop x.leaves, inputs := rest, cycle := s.cycle + 1 } := by
  have kept : u.inputs = s.inputs ∧ u.cycle = s.cycle := by cases e <;> exact ⟨rfl, rfl⟩
  obtain ⟨inputs, cycle⟩ := kept
  rw [e.step_eq, State.endCycle, e.pins, State.pins_eq_of_inputs script, inputs, script, cycle, List.tail_cons]

end

/-! ### Sending -/

/-- A byte is taken and, like what the output buffer held before it, transmitted in the same cycle. -/
theorem step_takeByte {s : State} {pending : Nat} {rest : List Inputs} (send : s.fsm = .send)
    (more : s.txIdx.toNat < 9) (held : s.linkOut.length ≤ pending)
    (script : s.inputs = Script.takeByte pending :: rest) :
    step s = .next { s with
      txIdx := s.txIdx + 1, linkOut := [], inputs := rest, cycle := s.cycle + 1
      observed := s.observed ++ [.sent (frameOf Config.hw s.op)[s.txIdx.toNat]] } := by
  have pins := State.pins_eq_of_inputs script
  have byte : Edge s _ := .sendByte (by rw [pins]; rfl) send more (by rw [pins]; rfl)
  rw [byte.step_of_inputs script]
  simp [Script.takeByte, Inputs.quiet, held]

theorem drop_frameBytes (f : Frame) (k : Nat) (h : k < 9) :
    (frameBytes f).drop k = f[k] :: (frameBytes f).drop (k + 1) :=
  List.drop_eq_getElem_cons (by simpa using h)

/-- From any index below nine on, the rest of the frame is taken byte by byte (R104). -/
theorem runSteps_takeBytes (k : Nat) {s : State} {pending : Nat} {rest : List Inputs} (send : s.fsm = .send)
    (left : s.txIdx.toNat + (k + 1) = 9) (held : s.linkOut.length ≤ pending)
    (script : s.inputs = List.replicate (k + 1) (Script.takeByte pending) ++ rest) :
    runSteps (k + 1) s = .next { s with
      txIdx := 9, linkOut := [], inputs := rest, cycle := s.cycle + (k + 1)
      observed := s.observed ++ ((frameBytes (frameOf Config.hw s.op)).drop s.txIdx.toNat).map .sent } := by
  induction k generalizing s with
  | zero =>
    have more : s.txIdx.toNat < 9 := by omega
    have last : s.txIdx + 1 = 9 := BitVec.eq_of_toNat_eq ((toNat_add_one more).trans left)
    rw [runSteps_next 0 s _ (step_takeByte send more held script), drop_frameBytes _ _ more, left, last,
      List.drop_eq_nil_of_le (frameBytes_length _).le]
    rfl
  | succ k ih =>
    have more : s.txIdx.toNat < 9 := by omega
    have next := toNat_add_one more
    rw [runSteps_next (k + 1) s _ (step_takeByte send more held script), drop_frameBytes _ _ more]
    refine Eq.trans (ih send (by simp only [next]; omega) (Nat.zero_le _) rfl) ?_
    simp only [next, List.map_cons, List.append_assoc, List.singleton_append, Nat.add_assoc, Nat.add_comm 1]

/-- The flush completes, and what arrives in its cycle joins the input buffer (R105). -/
theorem step_flush {s : State} {answer : List Byte} {rest : List Inputs} (send : s.fsm = .send) (whole : s.txIdx = 9)
    (transmitted : s.linkOut = []) (script : s.inputs = Script.flush answer :: rest) :
    step s = .next { s with
      fsm := if s.op = .read then .recv else .idle
      linkIn := s.linkIn ++ answer, inputs := rest, cycle := s.cycle + 1, observed := s.observed ++ [.flushed] } := by
  have pins := State.pins_eq_of_inputs script
  have flush : Edge s _ :=
    .flush (by rw [pins]; rfl) send whole (State.txEmpty_of_linkOut_nil (by rw [pins]; rfl) transmitted)
  exact flush.step_of_inputs script

/-- The whole of SEND: nine bytes and the flush, which are the trace of a SET command (R104, R105, R108). -/
theorem runSteps_send {s : State} {pending : Nat} {answer : List Byte} {rest : List Inputs} (send : s.fsm = .send)
    (start : s.txIdx = 0) (held : s.linkOut.length ≤ pending)
    (script : s.inputs = List.replicate 9 (Script.takeByte pending) ++ Script.flush answer :: rest) :
    runSteps 10 s = .next { s with
      fsm := if s.op = .read then .recv else .idle
      txIdx := 9, linkIn := s.linkIn ++ answer, linkOut := [], inputs := rest, cycle := s.cycle + 10
      observed := s.observed ++ setTrace s.op } := by
  rw [runSteps_add (runSteps_takeBytes 8 send (by rw [start]; rfl) held script) 1]
  refine Eq.trans (runSteps_next 0 _ _ (step_flush send rfl rfl rfl)) ?_
  simp [runSteps, start, setTrace]

/-! ### The commit -/

theorem Regs.push_setFsm (r : Regs) (v : Conc) (f : Fsm) :
    ({ r with fsm := f } : Regs).push v = { r.push v with fsm := f } := by
  unfold Regs.push
  split <;> rfl

@[simp] theorem State.commit_linkIn (s : State) (r : Reading) : (s.commit r).linkIn = s.linkIn := by
  cases r <;> rfl

@[simp] theorem State.commit_linkOut (s : State) (r : Reading) : (s.commit r).linkOut = s.linkOut := by
  cases r <;> rfl

/-- A commit reads neither `fsm`, which it sets, nor the transport, the script and the edge count, which it keeps. -/
theorem State.commit_frame (s : State) (r : Reading) (f : Fsm) (linkIn linkOut : List Byte) (inputs : List Inputs)
    (cycle : Nat) :
    ({ s with fsm := f, linkIn := linkIn, linkOut := linkOut, inputs := inputs, cycle := cycle } : State).commit r
      = { s.commit r with linkIn := linkIn, linkOut := linkOut, inputs := inputs, cycle := cycle } := by
  cases r with
  | ok c =>
    simp only [State.commit, State.commitOk, Regs.push_setFsm]
    rfl
  | _ => rfl

/-! ### Receiving -/

/-- A byte offered before the ninth and before the timeout is stored (R106). -/
theorem step_deliver {s : State} {b : Byte} {bytes : List Byte} {rest : List Inputs} (recv : s.fsm = .recv)
    (more : s.rxCnt.toNat < 9) (oldest : s.linkIn = b :: bytes) (script : s.inputs = Script.deliver :: rest) :
    step s = .next { s with
      rxBuf := s.rxBuf.set s.rxCnt.toNat b more, rxCnt := s.rxCnt + 1
      linkIn := bytes, inputs := rest, cycle := s.cycle + 1, observed := s.observed ++ [.received b] } := by
  have pins := State.pins_eq_of_inputs script
  have byte := Edge.receiveByte_of_offer recv (by rw [pins]; rfl) more (by rw [pins]; rfl) (by rw [pins]; rfl) oldest
  rw [byte.step_of_inputs script]
  simp [Script.deliver, Inputs.quiet]

theorem storeBytes_cons (buf : Frame) {k : Nat} (b : Byte) (bytes : List Byte) (h : k < 9) :
    storeBytes buf k (b :: bytes) = storeBytes (buf.set k b h) (k + 1) bytes := by
  have inBounds : buf.setIfInBounds k b = buf.set k b h :=
    Vector.toList_inj.mp (by rw [Vector.toList_setIfInBounds, Vector.toList_set h])
  rw [storeBytes, inBounds]

/-- The bytes of an answer are stored one by one behind those received so far (R106). -/
theorem runSteps_deliver (bytes : List Byte) {s : State} {rest : List Inputs} (recv : s.fsm = .recv)
    (room : s.rxCnt.toNat + bytes.length ≤ 9) (offered : s.linkIn = bytes)
    (script : s.inputs = List.replicate bytes.length Script.deliver ++ rest) :
    runSteps bytes.length s = .next { s with
      rxBuf := storeBytes s.rxBuf s.rxCnt.toNat bytes, rxCnt := BitVec.ofNat 4 (s.rxCnt.toNat + bytes.length)
      linkIn := [], inputs := rest, cycle := s.cycle + bytes.length
      observed := s.observed ++ bytes.map .received } := by
  induction bytes generalizing s with
  | nil =>
    have inputs : s.inputs = rest := script
    obtain ⟨⟩ := s
    cases offered
    cases inputs
    simp [runSteps, storeBytes]
  | cons b bytes ih =>
    rw [List.length_cons] at room
    have more : s.rxCnt.toNat < 9 := by omega
    have next := toNat_add_one more
    rw [List.length_cons, runSteps_next _ s _ (step_deliver recv more offered script)]
    refine Eq.trans (ih recv (by simp only [next]; omega) rfl rfl) ?_
    simp only [next, storeBytes_cons _ b bytes more, List.map_cons, List.append_assoc, List.singleton_append,
      Nat.add_assoc, Nat.add_comm 1]

theorem Edge.complete {s : State} (run : s.pins.rst = false) (last : s.rspValid = true) : Edge s s.complete := by
  obtain ⟨c, ok, completed⟩ | ⟨failed, -, completed⟩ := s.complete_cases
  · exact completed ▸ .commitOk c run last ok
  · exact completed ▸ .commitError run last failed

/-- How the script ends a read of the given number of bytes: with the ninth, or by the timeout. -/
def Script.endOfRead (received : Nat) : Inputs :=
  if received = 9 then Inputs.quiet else Script.timeout

theorem Script.endOfRead_moves_nothing (received : Nat) :
    (Script.endOfRead received).rst = false ∧ (Script.endOfRead received).arrives = []
      ∧ (Script.endOfRead received).leaves = 0 := by
  unfold Script.endOfRead
  split <;> exact ⟨rfl, rfl, rfl⟩

/-- The cycle that ends the read is the last of RECV: the commit of what VALIDATE gives (R107). -/
theorem step_endOfRead {s : State} {received : Nat} {rest : List Inputs} (recv : s.fsm = .recv)
    (counted : s.rxCnt.toNat = received) (script : s.inputs = Script.endOfRead received :: rest) :
    step s = .next (State.commit { s with inputs := rest, cycle := s.cycle + 1 }
      (validate Config.hw received s.rxBuf)) := by
  subst counted
  have pins := State.pins_eq_of_inputs script
  obtain ⟨run, arrives, leaves⟩ := Script.endOfRead_moves_nothing s.rxCnt.toNat
  have last : s.rspValid = true := by
    refine s.rspValid_iff.mpr ⟨recv, ?_⟩
    by_cases nine : s.rxCnt.toNat = 9
    · exact .inl (BitVec.eq_of_toNat_eq nine)
    · exact .inr (by rw [pins, Script.endOfRead, if_neg nine]; rfl)
  have completed := (Edge.complete (by rw [pins, run]) last).step_of_inputs script
  rw [arrives, leaves, List.append_nil, List.drop_zero, State.complete, State.commit_linkIn, State.commit_linkOut]
    at completed
  exact completed.trans (congrArg Host.Outcome.next
    (s.commit_frame s.outcome s.fsm s.linkIn s.linkOut rest (s.cycle + 1)).symm)

/-- The whole of RECV: the bytes of the answer, then the commit of what VALIDATE gives of them (R106, R107). -/
theorem runSteps_receive {s : State} {answer : List Byte} {rest : List Inputs} (recv : s.fsm = .recv)
    (fresh : s.rxCnt = 0) (short : answer.length ≤ 9) (offered : s.linkIn = answer)
    (script : s.inputs
      = List.replicate answer.length Script.deliver ++ Script.endOfRead answer.length :: rest) :
    runSteps (answer.length + 1) s = .next (State.commit
      { s with
        rxCnt := BitVec.ofNat 4 answer.length, rxBuf := storeBytes s.rxBuf 0 answer
        linkIn := [], inputs := rest, cycle := s.cycle + answer.length + 1
        observed := s.observed ++ answer.map .received }
      (validate Config.hw answer.length (storeBytes s.rxBuf 0 answer))) := by
  have zero : s.rxCnt.toNat = 0 := by rw [fresh]; rfl
  have counted : (BitVec.ofNat 4 answer.length).toNat = answer.length :=
    Nat.mod_eq_of_lt (show answer.length < 16 by omega)
  rw [runSteps_add (runSteps_deliver answer recv (by omega) offered script) 1, zero, Nat.zero_add]
  exact runSteps_next 0 _ _ (step_endOfRead recv counted rfl)

/-! ### The commands -/

/-- The acceptance of POLL_CO2 and the discard (R101, R103). -/
theorem runSteps_poll_discard {s : State} {rest : List Inputs} (idle : s.fsm = .idle)
    (script : s.inputs = Script.present 1 :: Inputs.quiet :: rest) :
    runSteps 2 s = .next { s with
      fsm := .send, op := .read, txIdx := 0, rxCnt := 0, linkIn := [], inputs := rest, cycle := s.cycle + 2
      observed := s.observed ++ [.discardInput] } := by
  have pins := State.pins_eq_of_inputs script
  have accept : Edge s _ := .poll (by rw [pins]; rfl) idle (by rw [pins]; rfl) (by rw [pins]; rfl)
  rw [runSteps_next 1 s _ (accept.step_of_inputs script)]
  refine Eq.trans (runSteps_next 0 _ _ (Edge.step_of_inputs (.discard rfl rfl) rfl)) ?_
  rfl

/-- The acceptance of a SET command (R101). -/
theorem step_set {s : State} {code : BitVec 3} {o : Op} {rest : List Inputs} (idle : s.fsm = .idle)
    (pair : code = 2 ∧ o = .abcOff ∨ code = 3 ∧ o = .abcOn ∨ code = 4 ∧ o = .range)
    (script : s.inputs = Script.present code :: rest) :
    step s = .next { s with fsm := .send, op := o, txIdx := 0, inputs := rest, cycle := s.cycle + 1 } := by
  have pins := State.pins_eq_of_inputs script
  have accept : Edge s _ := .set o (by rw [pins]; rfl) idle (by rw [pins]; rfl) (by rw [pins]; exact pair)
  rw [accept.step_of_inputs script]
  simp [Script.present, Inputs.quiet]

/-- The script of a SET command, phase by phase. -/
theorem Script.set_append (pending : Nat) (code : BitVec 3) (rest : List Inputs) :
    Script.set pending code ++ rest
      = Script.present code :: (List.replicate 9 (Script.takeByte pending) ++ Script.flush [] :: rest) := by
  simp [Script.set]

/-- Settles O55: the acceptance, then the whole of SEND. -/
theorem setRunReachesItsSummary : Obligations.SetRunReachesItsSummary := by
  intro s code o rest idle pair
  simp only [List.mem_cons, List.not_mem_nil, Prod.mk.injEq, or_false] at pair
  have set : o ≠ .read := by rintro rfl; simp at pair
  rw [Script.set_append]
  refine Eq.trans (runSteps_next 10 _ _ (step_set idle pair rfl)) ?_
  refine Eq.trans (runSteps_send rfl rfl le_rfl rfl) ?_
  simp [set, State.setSummary, idle]

/-- The script of a poll, phase by phase. -/
theorem Script.poll_append (pending : Nat) (answer : List Byte) (rest : List Inputs) :
    Script.poll pending answer ++ rest
      = Script.present 1 :: Inputs.quiet
        :: (List.replicate 9 (Script.takeByte pending) ++ Script.flush answer
        :: (List.replicate answer.length Script.deliver ++ Script.endOfRead answer.length :: rest)) := by
  simp [Script.poll, Script.endOfRead]

/-- The calls of a poll are the discard, those of sending its frame, and the bytes read (R111). -/
theorem pollTrace_eq (answer : List Byte) :
    pollTrace answer = [.discardInput] ++ setTrace .read ++ answer.map .received := by
  simp [pollTrace, setTrace]

/-- Settles O54: the acceptance and the discard, the whole of SEND, the whole of RECV. -/
theorem pollRunReachesItsSummary : Obligations.PollRunReachesItsSummary := by
  intro s answer rest idle short
  have edges : 13 + answer.length = 2 + (10 + (answer.length + 1)) := by omega
  have cycles : s.cycle + 13 + answer.length = s.cycle + 2 + 10 + answer.length + 1 := by omega
  have started := runSteps_poll_discard (s := { s with inputs := Script.poll s.linkOut.length answer ++ rest })
    idle (Script.poll_append _ _ _)
  rw [edges, runSteps_add started]
  refine Eq.trans (runSteps_add (m := 10) (runSteps_send rfl rfl le_rfl rfl) _) ?_
  refine Eq.trans (runSteps_receive rfl rfl short rfl rfl) ?_
  rw [State.pollSummary, ← State.commit_frame _ _ .recv, pollTrace_eq, cycles, ← List.append_assoc,
    ← List.append_assoc]
  rfl

end Sys2Proof.Machine
end

section
/-!
The operations of the controller as rows of the table (spec/44_controller_ops.md R130 to R137; spec/60_exceptions.md
R147): the commits under the status rows, and the one-step commands.
-/

namespace Sys2Proof.Machine

/-! ### The commits -/

section
variable {s : State}

/-- In the last cycle of RECV the row of the outcome commits it (R107). -/
theorem exec_row_of_outcome {r : Reading} (last : s.rspValid = true) (outcome : s.outcome = r) :
    exec r.row s = .next (s.commit r) := by
  subst outcome
  rw [exec_row, State.onStatus_of_rspValid last, State.complete]

/-- Nine bytes end RECV: the row of what VALIDATE says of them commits it. -/
theorem exec_row_of_whole {r : Reading} (recv : s.fsm = .recv) (whole : s.rxCnt = 9)
    (result : validate Config.hw 9 s.rxBuf = r) : exec r.row s = .next (s.commit r) := by
  refine exec_row_of_outcome (s.rspValid_iff.mpr ⟨recv, .inl whole⟩) ?_
  rw [← result, State.outcome, whole]
  rfl

/-- A timeout ends RECV: with fewer than nine bytes the poll is incomplete (R81). -/
theorem exec_row_of_timeout (recv : s.fsm = .recv) (short : s.rxCnt.toNat < 9) (timeout : s.pins.rxTimeout = true) :
    exec Reading.incompleteResponse.row s = .next (s.commit .incompleteResponse) :=
  exec_row_of_outcome (s.rspValid_iff.mpr ⟨recv, .inr timeout⟩) (validate_incomplete short)

end

/-- Settles O39: under the condition of its kind each error row commits that kind. -/
theorem errorStatusesCountOneFailure : Obligations.ErrorStatusesCountOneFailure := by
  intro s recv
  refine ⟨?incomplete, ?badStart, ?unexpected, ?mismatch⟩
  case incomplete =>
    exact fun short timeout => exec_row_of_timeout recv short timeout
  case badStart =>
    exact fun whole start => exec_row_of_whole (r := .badStartByte) recv whole (validate_badStart le_rfl start)
  case unexpected =>
    exact fun whole start code =>
      exec_row_of_whole (r := .unexpectedResponseCode) recv whole (validate_unexpected le_rfl start code)
  case mismatch =>
    exact fun whole start code sum =>
      exec_row_of_whole (r := .checksumMismatch) recv whole (validate_mismatch le_rfl start code sum)

/-- The whole of a commit on success: it writes the filter's registers, `fsm` and the record, and no other part of the
state (R130). -/
theorem State.commitOk_eq (s : State) (c : Conc) :
    s.commitOk c = { s with
      fsm := .idle, win := (s.commitOk c).win, head := (s.commitOk c).head, count := (s.commitOk c).count
      sum := (s.commitOk c).sum, avg := (s.commitOk c).avg, observed := s.observed ++ [.rsp 0 c] } := by
  simp [State.commitOk, State.observe]

/-- Settles O40: the row of an Ok outcome is the commit on success, whose filter registers are those of PUSH and of
AVERAGE after it. -/
theorem okStatusPushesAndAverages : Obligations.OkStatusPushesAndAverages := by
  intro s c recv whole ok
  exact ⟨s.commitOk c, exec_row_of_whole recv whole ok, s.toRegs.push_window c, s.commitOk_sum c, s.commitOk_avg c,
    (s.commitOk c).avgValid_iff.mpr (s.toRegs.push_count_ne_zero c), s.commitOk_eq c⟩

/-! ### The one-step commands -/

/-- No command row has an effect on a block that is not idle (R101, R163). -/
theorem exec_command_busy {i : Instr} {s : State} (command : i.port = .command) (busy : s.fsm ≠ .idle) :
    exec i s = .next s := by
  cases i with
  | nop | reserved7 => rfl
  | pollCo2 | setAbcOff | setAbcOn | setRange2000 =>
    exact congrArg Host.Outcome.next (s.acceptSend_busy _ _ busy)
  | clearErrors | humFail => exact congrArg Host.Outcome.next (if_neg busy)
  | _ => cases command

/-- Settles O30: the row acts in IDLE alone. -/
theorem clearErrorsZeroesBothCounters : Obligations.ClearErrorsZeroesBothCounters :=
  fun _ => ⟨fun idle => congrArg Host.Outcome.next (if_pos idle), exec_command_busy rfl⟩

theorem exec_humFail_idle {s : State} (idle : s.fsm = .idle) :
    exec .humFail s = .next { s with humErr := satInc s.humErr } :=
  congrArg Host.Outcome.next (if_pos idle)

/-- The saturating increment below the maximum, as addition of words. -/
theorem satInc_eq_add_one {w : Nat} {v : BitVec w} (below : v.toNat < 2 ^ w - 1) : satInc v = v + 1 := by
  rw [satInc, if_pos below, BitVec.ofNat_add, BitVec.ofNat_toNat, BitVec.setWidth_eq]
  rfl

/-- Settles O31: the row is the saturating increment of `hum_err`, in IDLE alone. -/
theorem humFailCountsOne : Obligations.HumFailCountsOne := by
  refine fun s => ⟨fun idle below => ?_, fun idle max => ?_, exec_command_busy rfl⟩
  · rw [exec_humFail_idle idle, satInc_eq_add_one below]
  · rw [exec_humFail_idle idle, satInc_of_max max]

/-- Settles O32: both rows answer the state they are given. -/
theorem nopAndReservedChangeNothing : Obligations.NopAndReservedChangeNothing :=
  fun _ => ⟨rfl, rfl⟩

end Sys2Proof.Machine
end

section
/-!
What the exceptional conditions of spec/60_exceptions.md leave of a clock edge: there is always a next state (R141), and
a wait changes no register (R154).
-/

namespace Sys2Proof.Machine

/-! ### Totality -/

/-- Every row of the dispatch answers a next state; none traps or is refused (R141). -/
theorem exists_exec_eq_next (i : Instr) (s : State) : ∃ t, exec i s = .next t := by
  cases i <;> exact ⟨_, rfl⟩

/-- From every state there is an edge (`exists_edge`), and the step takes it. -/
theorem exists_step_eq_next (s : State) : ∃ t, step s = .next t := by
  obtain ⟨u, e⟩ := exists_edge s
  exact ⟨u.endCycle, e.step_eq⟩

/-- Settles O21: no row and no edge of the block answers anything but a next state. -/
theorem nothingStopsTheBlock : Obligations.NothingStopsTheBlock :=
  ⟨exists_exec_eq_next, exists_step_eq_next⟩

/-! ### Waiting -/

/-- A wait is an edge from the state to itself: in SEND while the byte is not taken (R104) or the flush is not complete
(R105), in RECV with neither a byte nor the timeout (R106, R154), in IDLE without a command (R115). -/
theorem Edge.of_waiting {s : State} (run : s.pins.rst = false)
    (waiting : (s.fsm = .send ∧ s.txIdx.toNat < 9 ∧ s.pins.txReady = false)
      ∨ (s.fsm = .send ∧ s.txIdx = 9 ∧ s.txEmpty = false)
      ∨ (s.fsm = .recv ∧ s.rxCnt.toNat < 9 ∧ s.pins.rxTimeout = false ∧ s.rxValid = false)
      ∨ (s.fsm = .idle ∧ s.pins.cmdValid = false)) : Edge s s := by
  obtain ⟨send, more, notReady⟩ | ⟨send, whole, notEmpty⟩ | ⟨recv, more, noTimeout, noByte⟩ | ⟨idle, noCommand⟩ :=
    waiting
  · exact .sendWait run send (by simp [notReady]) fun ⟨whole, _⟩ => ne_nine_of_lt more whole
  · exact .sendWait run send (by simp [whole]) (by simp [notEmpty])
  · exact .receiveWait run recv (State.rspValid_of_more more noTimeout) (by simp [noByte])
  · exact .idle run idle (by simp [noCommand])

/-- Settles O27: the edge of a wait changes nothing (`Edge.of_waiting`), and the end of the cycle that follows it touches
neither the registers nor the record of events. -/
theorem waitingChangesNoRegister : Obligations.WaitingChangesNoRegister :=
  fun s run waiting => ⟨s.endCycle, (Edge.of_waiting run waiting).step_eq, s.endCycle_toRegs, s.endCycle_observed⟩

end Sys2Proof.Machine
end

section
/-!
The busy block and the command port (spec/43_request_response_fsm.md R101; spec/70_reset_and_hazards.md R163).
-/

namespace Sys2Proof.Machine

/-- The inputs of a cycle, with the given command port in place of theirs (R60). -/
def Inputs.present (x : Inputs) (v : Bool) (c : BitVec 3) : Inputs :=
  { x with cmdValid := v, cmdCode := c }

/-- Outside IDLE no guard of an edge reads the command port, so the edge is there whatever is presented; the states it
joins differ in that port alone. -/
theorem Edge.present_of_busy {s u : State} {x : Inputs} {rest : List Inputs} (busy : s.fsm ≠ .idle) (v : Bool)
    (c : BitVec 3) (e : Edge { s with inputs := x :: rest } u) :
    Edge { s with inputs := x.present v c :: rest } { u with inputs := x.present v c :: rest } := by
  cases e with
  | idle _ fsm | poll _ fsm | set _ _ fsm | clearErrors _ fsm | humFail _ fsm => exact absurd fsm busy
  | reset rst => exact .reset rst
  | discard run fsm => exact .discard run fsm
  | sendWait run fsm noByte noFlush => exact .sendWait run fsm noByte noFlush
  | sendByte run fsm more ready => exact .sendByte (s := { s with inputs := x.present v c :: rest }) run fsm more ready
  | flush run fsm whole empty => exact .flush run fsm whole empty
  | receiveWait run fsm notLast noByte => exact .receiveWait run fsm notLast noByte
  | receiveByte b left run fsm notLast more ready valid oldest =>
    exact .receiveByte (s := { s with inputs := x.present v c :: rest }) b left run fsm notLast more ready valid oldest
  | commitOk conc run last ok => exact .commitOk conc run last ok
  | commitError run last failed => exact .commitError run last failed

/-- The end of the cycle takes the presented command away, so the two edges of `Edge.present_of_busy` end alike. -/
theorem step_present_of_busy {s : State} (busy : s.fsm ≠ .idle) (x : Inputs) (rest : List Inputs) (v : Bool)
    (c : BitVec 3) : step { s with inputs := x.present v c :: rest } = step { s with inputs := x :: rest } := by
  obtain ⟨u, e⟩ := exists_edge { s with inputs := x :: rest }
  exact ((e.present_of_busy busy v c).step_of_inputs rfl).trans (e.step_of_inputs rfl).symm

/-- A block that is not idle is not ready for a command (R60, R115). -/
theorem State.cmdReady_of_busy {s : State} (busy : s.fsm ≠ .idle) : s.outputs.cmdReady = false := by
  simp [busy]

/-- Settles O33: the rows act in IDLE alone (`exec_command_busy`), and so do the edges that read the command port. -/
theorem busyBlockTakesNoCommand : Obligations.BusyBlockTakesNoCommand :=
  ⟨fun _ _ command busy => exec_command_busy command busy,
    fun _ x rest v c busy => ⟨State.cmdReady_of_busy busy, step_present_of_busy busy x rest v c⟩⟩

end Sys2Proof.Machine
end
